-- ==== Sys2Proof/Word.lean ====
section
/-! DEFINITION. The word types of the framer (spec/00_scope.md section 6.1: everything is unsigned). -/

namespace Sys2Proof

/-- `u8`: a stored byte, a wire byte, a channel operand, a pin identifier. -/
abbrev Byte := BitVec 8

/-- `u16`: a strip length or a pixel index. -/
abbrev Half := BitVec 16

/-- `u32`: a packed colour or a command's RESULT. -/
abbrev Word := BitVec 32

/-- The 64-bit command word CW of rule R60. -/
abbrev CommandWord := BitVec 64

end Sys2Proof
end

