-- ==== Sys2Proof/Syntax.lean ====
section
/-! DEFINITION. The instruction set: one constructor per row of spec/opcode_table.json (spec/30_encoding.md R59 for
the thirteen commands, R51 and R52 for the two wire bytes), and the encoded units that the block is handed. -/

namespace Sys2Proof

/-- One instruction. The first thirteen are the host commands of rule R59, with the operand widths of its table; the
last two are the rows of kind `wire` of the opcode table, the units the serialiser sends (R51, R52). -/
inductive Instr where
  /-- `CONSTRUCT_NATIVE length` (R80). -/
  | constructNative (length : Half)
  /-- `CONSTRUCT_PINS length, data_pin, clock_pin, slow` (R81). -/
  | constructPins (length : Half) (dataPin clockPin : Byte) (slow : Bool)
  /-- `SELECT_NATIVE` (R82). -/
  | selectNative
  /-- `SELECT_PINS data_pin, clock_pin, slow` (R83). -/
  | selectPins (dataPin clockPin : Byte) (slow : Bool)
  /-- `ACTIVATE` (R84). -/
  | activate
  /-- `SET_PIXEL index, r, g, b` (R71). -/
  | setPixel (index : Half) (r g b : Byte)
  /-- `SET_PIXEL_PACKED index, color` (R72). -/
  | setPixelPacked (index : Half) (color : Word)
  /-- `GET_PIXEL_PACKED index` (R73). -/
  | getPixelPacked (index : Half)
  /-- `TRANSMIT` (R85). -/
  | transmit
  /-- `RESIZE new_length` (R74). -/
  | resize (newLength : Half)
  /-- `PACK r, g, b` (R75). -/
  | pack (r g b : Byte)
  /-- `LATCH_LENGTH length` (R86). -/
  | latchLength (length : Half)
  /-- `EMIT_LATCH` (R87). -/
  | emitLatch
  /-- `COLOUR_BYTE`: the wire byte `1iiiiiii` (R51); its operand is the 7-bit intensity. -/
  | colourByte (intensity : BitVec 7)
  /-- `LATCH_BYTE`: the wire byte `00000000` (R52). -/
  | latchByte
deriving DecidableEq, Repr

/-- What can be presented to the block: a whole 64-bit command word (R60: "presented whole at the command port"), or
one 8-bit wire unit (R50). The two have different widths, so neither can be taken for the other (log 5). -/
inductive Presented where
  | command (w : CommandWord)
  | wireUnit (b : Byte)
deriving DecidableEq, Repr

/-- Why a presented unit names no instruction. -/
inductive DecodeError where
  /-- A command word whose opcode is 0, 14 or 15 (R63, U9). -/
  | reservedOpcode (opcode : BitVec 4)
  /-- A wire unit 0x01 to 0x7F, which the block never sends (R64, U17). -/
  | unsentWireByte (b : Byte)
deriving DecidableEq, Repr

end Sys2Proof
end

