-- ==== Sys2Proof/WellFormed.lean ====
section
/-! DEFINITION. Which instructions and which presented units are well formed. -/

namespace Sys2Proof

/-- Every operand value of every command is legal (spec/60_exceptions.md R124: "There is no illegal-operand
condition"), and the operand widths are in the types, so there is nothing to check for any constructor. -/
def Instr.wellFormed : Instr → Bool
  | .constructNative _ => true
  | .constructPins _ _ _ _ => true
  | .selectNative => true
  | .selectPins _ _ _ => true
  | .activate => true
  | .setPixel _ _ _ _ => true
  | .setPixelPacked _ _ => true
  | .getPixelPacked _ => true
  | .transmit => true
  | .resize _ => true
  | .pack _ _ _ => true
  | .latchLength _ => true
  | .emitLatch => true
  | .colourByte _ => true
  | .latchByte => true

/-- The bits of a command word that its format gives a field (spec/30_encoding.md R60, R61); the others are ignored.
`none` for the reserved opcodes 0, 14 and 15 (R63). -/
def usedBits (opcode : Nat) : Option CommandWord :=
  match opcode with
  | 1 => some 0xFFFFF00000000000#64      -- L
  | 2 => some 0xFFFFFFFFF8000000#64      -- LP
  | 3 => some 0xF000000000000000#64      -- N
  | 4 => some 0xF0000FFFF8000000#64      -- P
  | 5 => some 0xF000000000000000#64      -- N
  | 6 => some 0xFFFFFFFFFFF00000#64      -- IC
  | 7 => some 0xFFFFFFFFFFFFF000#64      -- IW
  | 8 => some 0xFFFFF00000000000#64      -- I
  | 9 => some 0xF000000000000000#64      -- N
  | 10 => some 0xFFFFF00000000000#64     -- L
  | 11 => some 0xF0000FFFFFF00000#64     -- C
  | 12 => some 0xFFFFF00000000000#64     -- L
  | 13 => some 0xF000000000000000#64     -- N
  | _ => none

/-- A presented unit is well formed when it names an instruction and, for a command word, the ignored bits are 0
("a host should write them as 0", R60). A word whose ignored bits are not 0 still decodes: it is only not the word
the spec prints. -/
def Presented.wellFormed : Presented → Bool
  | .command w =>
    match usedBits (w.extractLsb' 60 4).toNat with
    | some mask => (w &&& ~~~mask) == 0#64
    | none => false
  | .wireUnit b => b == 0#8 || b.getLsbD 7

end Sys2Proof
end

