-- ==== Sys2Proof/Decode.lean ====
section
/-! DEFINITION. The decoder, total on every presented unit and rejecting by name, and the encoder, both written from
spec/30_encoding.md R51, R52, R60, R61, R63. -/

namespace Sys2Proof

/-- `CW[63:60]`. -/
def opcodeField (w : CommandWord) : BitVec 4 := w.extractLsb' 60 4

/-- `CW[59:44]`: `length` (formats L, LP) or `index` (I, IC, IW). -/
def halfField (w : CommandWord) : Half := w.extractLsb' 44 16

/-- `CW[43:36]`: `data_pin` (LP, P) or `r` (IC, C). -/
def firstByteField (w : CommandWord) : Byte := w.extractLsb' 36 8

/-- `CW[35:28]`: `clock_pin` (LP, P) or `g` (IC, C). -/
def secondByteField (w : CommandWord) : Byte := w.extractLsb' 28 8

/-- `CW[27:20]`: `b` (IC, C). -/
def thirdByteField (w : CommandWord) : Byte := w.extractLsb' 20 8

/-- `CW[27]`: `slow` (LP, P). -/
def slowField (w : CommandWord) : Bool := w.getLsbD 27

/-- `CW[43:12]`: `color` (IW). -/
def colorField (w : CommandWord) : Word := w.extractLsb' 12 32

/-- Decoding a command word by its opcode (R61); 0, 14 and 15 are reserved (R63). Bits outside the format's fields
are not looked at (R60). -/
def decodeCommand (w : CommandWord) : Except DecodeError Instr :=
  match (opcodeField w).toNat with
  | 1 => .ok (.constructNative (halfField w))
  | 2 => .ok (.constructPins (halfField w) (firstByteField w) (secondByteField w) (slowField w))
  | 3 => .ok .selectNative
  | 4 => .ok (.selectPins (firstByteField w) (secondByteField w) (slowField w))
  | 5 => .ok .activate
  | 6 => .ok (.setPixel (halfField w) (firstByteField w) (secondByteField w) (thirdByteField w))
  | 7 => .ok (.setPixelPacked (halfField w) (colorField w))
  | 8 => .ok (.getPixelPacked (halfField w))
  | 9 => .ok .transmit
  | 10 => .ok (.resize (halfField w))
  | 11 => .ok (.pack (firstByteField w) (secondByteField w) (thirdByteField w))
  | 12 => .ok (.latchLength (halfField w))
  | 13 => .ok .emitLatch
  | _ => .error (.reservedOpcode (opcodeField w))

/-- Decoding a wire unit: bit 7 alone tells colour data from control (R50, R51); the one latch byte is 0x00 (R52);
0x01 to 0x7F are never sent (R64). -/
def decodeWireUnit (b : Byte) : Except DecodeError Instr :=
  if b.getLsbD 7 then .ok (.colourByte (b.extractLsb' 0 7))
  else if b = 0#8 then .ok .latchByte
  else .error (.unsentWireByte b)

/-- The decoder. -/
def decode : Presented → Except DecodeError Instr
  | .command w => decodeCommand w
  | .wireUnit b => decodeWireUnit b

/-- The colour byte of a 7-bit intensity: `1iiiiiii` (R51). -/
def colourByteOf (intensity : BitVec 7) : Byte := 1#1 ++ intensity

/-- The encoder: the fields at the positions of R60, ignored bits 0, the opcode of R61; the wire bytes of R51, R52. -/
def encode : Instr → Presented
  | .constructNative length => .command (1#4 ++ length ++ 0#44)
  | .constructPins length d c slow => .command (2#4 ++ length ++ d ++ c ++ BitVec.ofBool slow ++ 0#27)
  | .selectNative => .command (3#4 ++ 0#60)
  | .selectPins d c slow => .command (4#4 ++ 0#16 ++ d ++ c ++ BitVec.ofBool slow ++ 0#27)
  | .activate => .command (5#4 ++ 0#60)
  | .setPixel index r g b => .command (6#4 ++ index ++ r ++ g ++ b ++ 0#20)
  | .setPixelPacked index color => .command (7#4 ++ index ++ color ++ 0#12)
  | .getPixelPacked index => .command (8#4 ++ index ++ 0#44)
  | .transmit => .command (9#4 ++ 0#60)
  | .resize newLength => .command (10#4 ++ newLength ++ 0#44)
  | .pack r g b => .command (11#4 ++ 0#16 ++ r ++ g ++ b ++ 0#20)
  | .latchLength length => .command (12#4 ++ length ++ 0#44)
  | .emitLatch => .command (13#4 ++ 0#60)
  | .colourByte intensity => .wireUnit (colourByteOf intensity)
  | .latchByte => .wireUnit 0x00#8

/-- The unit whose bits are `w`, for a table row of `nbits` bits: 8 bits are a wire unit, up to 64 a command word
(every bit above `nbits` is 0). The units of this hardware are single words, so no byte order arises (R60: the
command word is "presented whole"). -/
def presentedOfTable (nbits w : Nat) : Option Presented :=
  if nbits ≤ 8 then some (.wireUnit (BitVec.ofNat 8 w))
  else if nbits ≤ 64 then some (.command (BitVec.ofNat 64 w))
  else none

/-- The instruction the decoder reads from the unit whose bits are `w`. -/
def decodeTableWord (nbits w : Nat) : Option Instr :=
  match presentedOfTable nbits w with
  | some p =>
    match decode p with
    | .ok i => some i
    | .error _ => none
  | none => none

end Sys2Proof
end

