-- ==== Sys2Proof/Config.lean ====
section
/-! DEFINITION. What an implementation fixes (spec/00_scope.md section 5) and the free values. -/

namespace Sys2Proof

/-- The implementation parameters of spec/00_scope.md section 5 that are "model arguments". They are data, so a
statement about every state is a statement about every choice of them (log 1). -/
structure Config where
  /-- `SETTLE_DELAY_MS` (R5): the argument of the settle event, in milliseconds. -/
  settleDelayMs : Nat
  /-- `alloc_ok` (R6, D6): the ranges of lengths, both ends included, whose storage cannot be obtained. Every
  predicate on 16-bit lengths is a list of such ranges. -/
  allocRefused : List (Nat × Nat)
  /-- `NATIVE_PRESENT` (R7, D7). -/
  nativePresent : Bool
  /-- `NATIVE_CLOCK_HZ` (R103, U12): only ever the argument of the set-clock event. -/
  nativeClockHz : Nat
deriving DecidableEq, Repr

/-- A hardware instance with a pixel RAM of `capacity` LEDs (R6): `alloc_ok(n) = (n <= capacity)`. -/
def Config.ofCapacity (capacity : Nat) (c : Config) : Config :=
  { c with allocRefused := [(capacity + 1, 65535)] }

/-- FREE VALUE (log 2): the native clock rate after reset. The spec leaves it open and gives no default (N1, U12). -/
opaque Config.openClockHz : Nat

/-- FREE VALUES (log 4): the levels of the data and clock lines while nothing drives them (R20, U5). -/
opaque Config.floatingLevel : Nat → Bool

/-- FREE VALUE (log 16): the 17 pin and slow bits of BACKEND while its kind is not Manual (U7). -/
opaque Config.unusedPinBits : BitVec 17

/-- The spec's defaults: settle delay 3 ms (R5, D11), allocation never fails (D6, CAPACITY_PIXELS = 65535), native
peripheral present (D7); the clock rate is open. -/
def Config.default : Config :=
  { settleDelayMs := 3, allocRefused := [], nativePresent := true, nativeClockHz := Config.openClockHz }

end Sys2Proof
end

