-- ==== Sys2Proof/Machine/State.lean ====
section
/-! DEFINITION. The state of the framer (spec/10_state.md R10 to R22), the reasons a step can stop, and the state
after reset (R25). -/

namespace Sys2Proof.Machine

/-- The transmitter's state (R11). -/
inductive Fsm where
  | uninitialized
  | configured
  | active
deriving DecidableEq, Repr

/-- Which SerialBackend the transmitter uses (R12): a tagged value. The pin identifiers are opaque and unchecked (N3);
no rule reads `slow` (R105). -/
inductive Backend where
  | none
  | native
  | manual (dataPin clockPin : Byte) (slow : Bool)
deriving DecidableEq, Repr

/-- The phase of the transmit cursor (R18). -/
inductive Phase where
  | idle
  | colour
  | latch
  | settle
deriving DecidableEq, Repr

/-- The transmit cursor TXC (R18, D17): phase 2 bits, byte index 18 bits, bit index 3 bits. -/
structure Txc where
  phase : Phase
  byteIx : BitVec 18
  bitIx : BitVec 3
deriving DecidableEq, Repr

/-- `(Idle, 0, 0)`, the cursor between commands (R18). -/
def Txc.idle : Txc := { phase := .idle, byteIx := 0, bitIx := 0 }

/-- The completion status (R19, R120). -/
inductive Status where
  | ok
  | allocationFailure
  | backendUnavailable
deriving DecidableEq, Repr

/-- The output lines (R20). -/
structure Lines where
  dat : Bool
  clk : Bool
  drive : Bool
  nativeOn : Bool
deriving DecidableEq, Repr

/-- The event alphabet of WIRE (R108: "No other event exists"). -/
inductive Event where
  | nativeBegin
  | nativeSetClock (hz : Nat)
  | nativeByte (b : Byte)
  | nativeEnd
  | pinsOutput (dataPin clockPin : Byte)
  | dat (v : Bool)
  | clkHigh
  | clkLow
  | pinsRelease (dataPin clockPin : Byte)
  | settle (ms : Nat)
deriving DecidableEq, Repr

/-- Which of the three commands that move the cursor is in progress (R18: the cursor "exists only while an ACTIVATE,
TRANSMIT or EMIT_LATCH command runs"). -/
inductive Running where
  | activate
  | transmit
  | emitLatch
deriving DecidableEq, Repr

/-- The pixel store's cells: addresses strictly rising, no cell equal to what an unlisted address reads as (log 10). -/
abbrev Memory := List Host.Cell

/-- The state: everything R10 lists, and four fields of the model's own (`port`, `running`, `freeCount`, `cfg`). -/
structure State where
  /-- FSM (R11). -/
  fsm : Fsm
  /-- BACKEND (R12). -/
  backend : Backend
  /-- LENGTH (R13). -/
  length : Half
  /-- PIX (R14). -/
  pix : Memory
  /-- TXC (R18). -/
  txc : Txc
  /-- STATUS (R19). -/
  status : Status
  /-- RESULT (R19). -/
  result : Word
  /-- DAT, CLK, DRIVE, NATIVE_ON (R20). -/
  lines : Lines
  /-- The settle timer runs (R21). -/
  settleRunning : Bool
  /-- WIRE (R22), oldest event first. -/
  wire : List Event
  /-- The model's own: what the host has still to present, oldest first (log 6). -/
  port : List Presented
  /-- The model's own: the command in progress, for an execution split at the cursor (log 7). -/
  running : Option Running
  /-- The model's own: the index of the next free value (log 4). -/
  freeCount : Nat
  /-- The model's own: the implementation parameters, which nothing changes (log 1). -/
  cfg : Config
deriving DecidableEq, Repr

/-- Why a step stops with a fault. -/
inductive Fault where
  /-- Raised by the pixel store's access operations at a byte address outside the store: MemRead and MemWrite are
  defined only for `addr + n <= 3 * LENGTH` (spec/00_scope.md section 6.2). Every rule checks the bound first, so no
  command raises it. Safe. -/
  | outsideStore (address : Nat)
deriving DecidableEq, Repr

/-- Why a step refuses. -/
inductive Refusal where
  /-- Raised by a dispatch arm whose instruction has no meaning yet. Safe. -/
  | notModelled (mnemonic : String)
  /-- Raised by a step that is presented a command word with opcode 0, 14 or 15 (R63, U9). Safe. -/
  | reservedOpcode (opcode : BitVec 4)
  /-- Raised by a step that is presented a wire unit 0x01 to 0x7F, which the block never sends (R64, U17). Safe. -/
  | unsentWireByte (b : Byte)
  /-- Raised by TRANSMIT, EMIT_LATCH and the two wire bytes while FSM is not Active (R85, R87, D9, U1). Safe. -/
  | notActive
  /-- Raised by the same in state Active with BACKEND = None, which cannot occur (R12, R88): `emit_byte` is defined
  for the two backends only (R100, R101). Safe. -/
  | noBackend
deriving DecidableEq, Repr

/-- The reset state (R25, R140) of a framer whose implementation parameters are `c`. DAT and CLK have no value in the
spec while DRIVE is false; the model names 0 for both (DESIGN CHOICE, unsafe, log 3). -/
def State.resetWith (c : Config) : State :=
  { fsm := .uninitialized
    backend := .none
    length := 0
    pix := []
    txc := Txc.idle
    status := .ok
    result := 0
    lines := { dat := false, clk := false, drive := false, nativeOn := false }
    settleRunning := false
    wire := []
    port := []
    running := none
    freeCount := 0
    cfg := c }

/-- The machine right after reset, with the spec's default parameters. -/
def State.reset : State := State.resetWith Config.default

/-- The block's reset of an existing instance (R140), which is also what destroying it means (D28): the state of R25,
the parameters kept. It is no command. -/
def State.blockReset (s : State) : State := State.resetWith s.cfg

end Sys2Proof.Machine
end

