-- ==== Sys2Proof/Machine/Flags.lean ====
section
/-! DEFINITION. The block has no condition codes and no sticky flags (spec/10_state.md R19); what stands in their place
is the completion status. Here are the codes of STATUS (R62, R120), the response of a command, and the bit encodings
of FSM, BACKEND and TXC's phase (R11, R12, R18, R26, D18). -/

namespace Sys2Proof.Machine

/-- STATUS as 4 bits: 0, 1, 2; 3 to 15 never occur (R62, R120). -/
def Status.code : Status → BitVec 4
  | .ok => 0
  | .allocationFailure => 1
  | .backendUnavailable => 2

/-- FSM as 2 bits: 0, 1, 2; 3 never occurs (R11). -/
def Fsm.code : Fsm → BitVec 2
  | .uninitialized => 0
  | .configured => 1
  | .active => 2

/-- The phase of TXC as 2 bits (R18). -/
def Phase.code : Phase → BitVec 2
  | .idle => 0
  | .colour => 1
  | .latch => 2
  | .settle => 3

/-- The kind of BACKEND as 2 bits: 0, 1, 2 (R12). -/
def Backend.kindCode : Backend → BitVec 2
  | .none => 0
  | .native => 1
  | .manual _ _ _ => 2

/-- The 19 bits of BACKEND (R26): kind, data pin, clock pin, slow. The pin and slow bits are unspecified while the kind
is not Manual (U7): free values (log 16). -/
def Backend.toBits : Backend → BitVec 19
  | .none => Backend.kindCode .none ++ Config.unusedPinBits
  | .native => Backend.kindCode .native ++ Config.unusedPinBits
  | .manual d c slow => Backend.kindCode (.manual d c slow) ++ d ++ c ++ BitVec.ofBool slow

/-- The response of the last completed command (R62): 4 bits of STATUS and 32 bits of RESULT. -/
def State.response (s : State) : BitVec 4 × Word := (s.status.code, s.result)

/-- The degraded condition is `LENGTH = 0`; it is no flag of its own (R19). -/
def State.degraded (s : State) : Bool := s.length == 0

/-- The started condition is `FSM = Active`; it is no flag of its own (R19). -/
def State.started (s : State) : Bool := s.fsm == .active

end Sys2Proof.Machine
end

