-- ==== Sys2Proof/Machine/Operands.lean ====
section
/-! DEFINITION. The operand forms: channel bytes, packed colour words, pixel addresses, the latch length
(spec/30_encoding.md R55 to R58, R65; spec/20_memory.md R31, R32; spec/41_transmitter_ops.md R86). -/

namespace Sys2Proof.Machine

/-- A stored byte from a channel operand (R57): bit 7 forced to 1, the low 7 bits kept. -/
def markByte (v : Byte) : Byte := v ||| 0x80#8

/-- A stored byte with its marker stripped (R73, R76): `v & 0x7F`. -/
def stripByte (v : Byte) : Byte := v &&& 0x7F#8

/-- Three bytes placed in a packed word, green at bit 16, red at bit 8, blue at bit 0 (R32, R55). -/
def placeBytes (green red blue : Byte) : Word :=
  (green.setWidth 32 <<< 16) ||| (red.setWidth 32 <<< 8) ||| blue.setWidth 32

/-- `color[23:16]`, the byte that goes to green (R32). -/
def greenByteOf (color : Word) : Byte := color.extractLsb' 16 8

/-- `color[15:8]`, the byte that goes to red (R32). -/
def redByteOf (color : Word) : Byte := color.extractLsb' 8 8

/-- `color[7:0]`, the byte that goes to blue (R32). -/
def blueByteOf (color : Word) : Byte := color.extractLsb' 0 8

/-- `pack(r, g, b)` (R56): the argument order is r, g, b, the byte order in the word g, r, b. -/
def packColour (r g b : Byte) : Word := placeBytes (markByte g) (markByte r) (markByte b)

/-- `unpack(c)` (R58): the 7-bit intensities `(r, g, b)`. -/
def unpackColour (c : Word) : BitVec 7 × BitVec 7 × BitVec 7 :=
  (c.extractLsb' 8 7, c.extractLsb' 16 7, c.extractLsb' 0 7)

/-- The effective address of a pixel access (R31): `3 * index`, not truncated. -/
def pixelAddress (index : Half) : Nat := 3 * index.toNat

/-- `latch_len(n) = (n >> 5) + (1 if (n & 31) != 0 else 0)` (R86), on naturals, so that nothing wraps (D29). -/
def latchLen (n : Half) : Nat := n.toNat / 32 + (if n.toNat % 32 = 0 then 0 else 1)

/-- The bits of a byte in wire order, bit 7 first (R33, R50). -/
def bitsMsbFirst (b : Byte) : List Bool :=
  [b.getLsbD 7, b.getLsbD 6, b.getLsbD 5, b.getLsbD 4, b.getLsbD 3, b.getLsbD 2, b.getLsbD 1, b.getLsbD 0]

end Sys2Proof.Machine
end

