-- ==== Sys2Proof/Machine/Ops.lean ====
section
/-! DEFINITION. The shared operations: the pixel store, completion of a command, the serial output, backend selection,
allocation, activation. The meanings of the instructions are short compositions of these. -/

namespace Sys2Proof.Machine

/-! ### The pixel store -/

/-- The off byte: zero intensity with the marker bit set (R14). It is what an unlisted address of the store reads as,
because NEW and RESIZE fill the store with it (R70, R74). -/
def offByte : Byte := 0x80#8

/-- The byte at `a`. -/
def Memory.read (m : Memory) (a : Nat) : Byte := (m.lookup a).getD offByte

/-- Insertion of a cell by its address. -/
def Memory.insertCell (a : Nat) (b : Byte) : Memory → Memory
  | [] => [(a, b)]
  | (x, v) :: rest => if a < x then (a, b) :: (x, v) :: rest else (x, v) :: Memory.insertCell a b rest

/-- Writing `b` at `a`: the old cell goes, and a new one stands unless `b` is what an unlisted address reads as. -/
def Memory.write (m : Memory) (a : Nat) (b : Byte) : Memory :=
  if b = offByte then m.filter (fun c => c.1 != a)
  else Memory.insertCell a b (m.filter (fun c => c.1 != a))

/-- The canonical form: addresses strictly rising, no cell equal to the off byte. -/
abbrev Memory.wf (m : Memory) : Prop :=
  m.Pairwise (fun x y => x.1 < y.1) ∧ ∀ c ∈ m, c.2 ≠ offByte

/-- The size of the store in bytes (R14). -/
def State.storeSize (s : State) : Nat := 3 * s.length.toNat

/-- Byte `a` of PIX, `none` outside the store (R39: "nothing: not part of the store"). -/
def State.pixByte (s : State) (a : Nat) : Option Byte :=
  if a < s.storeSize then some (s.pix.read a) else none

/-- The three bytes of one pixel, in store order (R53). -/
structure StoredPixel where
  green : Byte
  red : Byte
  blue : Byte
deriving DecidableEq, Repr

/-- `MemRead(addr, 3)` (spec/00_scope.md section 6.2), defined for `addr + 3 <= 3 * LENGTH`. -/
def State.memReadPixel (s : State) (addr : Nat) : Except Fault StoredPixel :=
  if addr + 3 ≤ s.storeSize then
    .ok { green := s.pix.read addr, red := s.pix.read (addr + 1), blue := s.pix.read (addr + 2) }
  else .error (.outsideStore addr)

/-- `MemWrite(addr, 3, [green, red, blue])` (spec/00_scope.md section 6.2), defined for `addr + 3 <= 3 * LENGTH`. -/
def State.memWritePixel (s : State) (addr : Nat) (p : StoredPixel) : Except Fault State :=
  if addr + 3 ≤ s.storeSize then
    .ok { s with pix := ((s.pix.write addr p.green).write (addr + 1) p.red).write (addr + 2) p.blue }
  else .error (.outsideStore addr)

/-- All bytes of the store in ascending address order (R41). -/
def State.colourBytes (s : State) : List Byte := (List.range s.storeSize).map s.pix.read

/-- The latch sequence for the current LENGTH: `latch_len(LENGTH)` bytes 0x00 (R16, R52, R87). -/
def State.latchBytes (s : State) : List Byte := List.replicate (latchLen s.length) 0x00#8

/-- `frame(PIX, LENGTH)` (R54): the colour bytes, then the trailing latch sequence. -/
def State.frameBytes (s : State) : List Byte := s.colourBytes ++ s.latchBytes

/-! ### Completion -/

/-- `return (status, result)` (spec/00_scope.md section 6.2; R19). -/
def State.complete (st : Status) (r : Word) (s : State) : State :=
  { s with status := st, result := r }

/-- Raising a condition: the one shared operation. There is no trap entry: no state is saved, no mode changes, control
goes nowhere; the command completes with the named status and result 0 (R120, R127). There is no return from it
(R128). -/
def State.raise (st : Status) (s : State) : State := s.complete st 0

/-- The cursor returns to `(Idle, 0, 0)` and the settle timer is stopped (R18, R21): no transfer is in progress. -/
def State.endTransfer (s : State) : State :=
  { s with txc := Txc.idle, settleRunning := false, running := none }

/-- The end of ACTIVATE, TRANSMIT and EMIT_LATCH: the transfer is over and the command completes with `(OK, 0)`. -/
def State.finish (s : State) : State := s.endTransfer.complete .ok 0

/-! ### The serial output -/

/-- What one event does to the output lines (R20, R102, R103, R104). The floating levels after a release are
`State.floatLines`'s. -/
def Lines.after (l : Lines) : Event → Lines
  | .nativeBegin => { l with nativeOn := true }
  | .nativeSetClock _ => l
  | .nativeByte _ => l
  | .nativeEnd => { l with nativeOn := false }
  | .pinsOutput _ _ => { l with drive := true, dat := false, clk := false }
  | .dat v => { l with dat := v }
  | .clkHigh => { l with clk := true }
  | .clkLow => { l with clk := false }
  | .pinsRelease _ _ => { l with drive := false }
  | .settle _ => l

/-- Producing events, in order: each is appended to WIRE and acts on the lines (R22, R40). -/
def State.emit (evs : List Event) (s : State) : State :=
  { s with wire := s.wire ++ evs, lines := evs.foldl Lines.after s.lines }

/-- `set_data_line(v)` (R106). -/
def setDataLine (v : Bool) : List Event := [.dat v]

/-- `pulse_clock()`: "drive high, then low" (R106). -/
def pulseClock : List Event := [.clkHigh, .clkLow]

/-- `emit_bit_clocked(v)` (R102): the data line, then the clock pulse. -/
def bitEvents (v : Bool) : List Event := setDataLine v ++ pulseClock

/-- `emit_byte(b)` on each backend: one transfer on the native one (R100; the byte it returns is discarded, R107), eight
clocked bits, bit 7 first, on the manual one (R101), whatever `slow` is (R105). `none` has no `emit_byte`. -/
def byteEvents : Backend → Byte → List Event
  | .none, _ => []
  | .native, b => [.nativeByte b]
  | .manual _ _ _, b => (bitsMsbFirst b).flatMap bitEvents

/-- `emit_byte(b)` through the backend of the state (R100, R101). -/
def State.emitByte (b : Byte) (s : State) : State := s.emit (byteEvents s.backend b)

/-- `emit_byte` of every byte of a list, in order. -/
def State.emitBytes (bs : List Byte) (s : State) : State := s.emit (bs.flatMap (byteEvents s.backend))

/-- `emit_latch()` (R87): `latch_len(LENGTH)` zero bytes. -/
def State.emitLatchSequence (s : State) : State := s.emitBytes s.latchBytes

/-- `settle()` (R94): the event with its parameter; the model keeps no time (R21, R150). -/
def State.settleDelay (s : State) : State := s.emit [.settle s.cfg.settleDelayMs]

/-! ### Selecting a backend -/

/-- The lines once nothing drives them: DAT and CLK take free values (R20, R88, U5; log 4). -/
def State.floatLines (s : State) : State :=
  { s with
    lines := { s.lines with
      dat := Config.floatingLevel s.freeCount
      clk := Config.floatingLevel (s.freeCount + 1) }
    freeCount := s.freeCount + 2 }

/-- `QUIESCE()` (R88): disables whatever ACTIVATE enabled. -/
def State.quiesce (s : State) : State :=
  match s.backend with
  | .none => s
  | .native => s.emit [.nativeEnd]
  | .manual d c _ => (s.emit [.pinsRelease d c]).floatLines

/-- `SELECT(b)` (R82): quiesce the old backend if Active, record the new one, Configured. -/
def State.select (k : Backend) (s : State) : State :=
  { (if s.fsm = .active then s.quiesce else s) with backend := k, fsm := .configured }

/-! ### Allocation -/

/-- `alloc_ok(n)` (R6): a function of the length alone, true of 0 (D6, D24). -/
def allocOk (c : Config) (n : Half) : Bool :=
  n == 0 || !(c.allocRefused.any fun r => decide (r.1 ≤ n.toNat) && decide (n.toNat ≤ r.2))

/-- `NEW(n)` (R70) and the body of RESIZE (R74): the old store is gone; a new one, every byte off, or the degraded strip
with AllocationFailure (R121). -/
def State.newStore (n : Half) (s : State) : State :=
  if allocOk s.cfg n then { s with length := n, pix := [] }.complete .ok 0
  else { s with length := 0, pix := [] }.raise .allocationFailure

/-! ### Activation -/

/-- The events that enable the chosen backend, `none` when it is unavailable (R84): the state check first, then the
native-present check (R126, D21). With no backend selected the command is unavailable too (D8; log 11). -/
def State.enableEvents (s : State) : Option (List Event) :=
  if s.fsm = .uninitialized then none
  else
    match s.backend with
    | .none => none
    | .native => if s.cfg.nativePresent then some [.nativeBegin, .nativeSetClock s.cfg.nativeClockHz] else none
    | .manual d c _ => some [.pinsOutput d c]

/-- The backend is enabled and the state becomes Active (R84, R103, R104). -/
def State.enable (evs : List Event) (s : State) : State := { s.emit evs with fsm := .active }

/-! ### Sending through the active backend -/

/-- What TRANSMIT, EMIT_LATCH and the wire bytes need before they send: state Active (R85, R87, D9, U1) and one of the
two backends (R100, R101; log 11). -/
def State.throughActiveBackend (send : State → State) (s : State) : Host.Outcome State Fault Refusal :=
  if s.fsm = .active then
    match s.backend with
    | .none => .refused .noBackend
    | .native => .next (send s)
    | .manual _ _ _ => .next (send s)
  else .refused .notActive

end Sys2Proof.Machine
end

