-- ==== Sys2Proof/Machine/Cursor.lean ====
section
/-! DEFINITION. The transmit cursor TXC (spec/10_state.md R18): ACTIVATE, TRANSMIT and EMIT_LATCH executed one cursor
position at a time. A command of the machine is one atomic step (spec/20_memory.md R37) that starts and ends with the
cursor idle; this is the same execution split at the positions R18 names, for a state whose `running` field says that
one of the three commands is in progress (log 7). -/

namespace Sys2Proof.Machine

/-- The bit index at the start of a byte: 7 on the manual backend; on the native one it stays 0, the byte is handed
over whole (R18; log 7). -/
def firstBit : Backend → BitVec 3
  | .none => 0
  | .native => 0
  | .manual _ _ _ => 7

/-- After the last latch byte: TRANSMIT enters phase Settle, where the settle event is produced and the timer runs
(R94); ACTIVATE and EMIT_LATCH have no settle delay (D11) and complete. R18 says only that the phase becomes Settle and
gives `byte_ix` and `bit_ix` no meaning there: the model sets both to 0 (DESIGN CHOICE, unsafe for a claim about the two
fields in that phase, log 7). -/
def State.leaveLatch (c : Running) (s : State) : State :=
  match c with
  | .transmit =>
    { s.settleDelay with txc := { phase := .settle, byteIx := 0, bitIx := 0 }, settleRunning := true }
  | .activate => s.finish
  | .emitLatch => s.finish

/-- Entering phase Latch, "or Settle directly if `latch_len(LENGTH) = 0`" (R18). -/
def State.enterLatch (c : Running) (s : State) : State :=
  if latchLen s.length = 0 then s.leaveLatch c
  else { s with txc := { phase := .latch, byteIx := 0, bitIx := firstBit s.backend } }

/-- Entering phase Colour if `LENGTH > 0` (R18). -/
def State.enterColour (c : Running) (s : State) : State :=
  if s.length = 0 then s.enterLatch c
  else { s with txc := { phase := .colour, byteIx := 0, bitIx := firstBit s.backend } }

/-- A byte has been sent: `byte_ix` increases by 1, or the phase ends (R18). The cursor only moves forward. -/
def State.nextByte (c : Running) (s : State) : State :=
  match s.txc.phase with
  | .colour =>
    if s.txc.byteIx.toNat + 1 < s.storeSize then
      { s with txc := { phase := .colour, byteIx := s.txc.byteIx + 1, bitIx := firstBit s.backend } }
    else s.enterLatch c
  | .latch =>
    if s.txc.byteIx.toNat + 1 < latchLen s.length then
      { s with txc := { phase := .latch, byteIx := s.txc.byteIx + 1, bitIx := firstBit s.backend } }
    else s.leaveLatch c
  | .settle => s.finish
  | .idle => s.finish

/-- Sending at the cursor: the whole byte on the native backend (R100), one bit on the manual one (R101, R102). -/
def State.sendAtCursor (c : Running) (b : Byte) (s : State) : State :=
  match s.backend with
  | .none => s.nextByte c
  | .native => (s.emit [.nativeByte b]).nextByte c
  | .manual _ _ _ =>
    if s.txc.bitIx = 0 then (s.emit (bitEvents (b.getLsbD s.txc.bitIx.toNat))).nextByte c
    else { s.emit (bitEvents (b.getLsbD s.txc.bitIx.toNat)) with txc := { s.txc with bitIx := s.txc.bitIx - 1 } }

/-- One cursor position of the command in progress. When the settle delay ends the cursor returns to `(Idle, 0, 0)` and
the command completes (R18). There is no abort (R151). -/
def State.cursorStep (c : Running) (s : State) : State :=
  match s.txc.phase with
  | .colour => s.sendAtCursor c (s.pix.read s.txc.byteIx.toNat)
  | .latch => s.sendAtCursor c 0x00#8
  | .settle => s.finish
  | .idle => s.finish

/-- The command that a `Running` names. -/
def Running.instr : Running → Instr
  | .activate => .activate
  | .transmit => .transmit
  | .emitLatch => .emitLatch

/-- Starting one of the three commands in its split form: the checks and, for ACTIVATE, the enabling of the backend
(R84); then the cursor stands at its first position (R18). -/
def State.beginCommand (c : Running) (s : State) : Host.Outcome State Fault Refusal :=
  match c with
  | .activate =>
    match s.enableEvents with
    | none => .next (s.raise .backendUnavailable)
    | some evs => .next (({ s with running := some .activate }.enable evs).enterLatch .activate)
  | .transmit => s.throughActiveBackend fun s => { s with running := some .transmit }.enterColour .transmit
  | .emitLatch => s.throughActiveBackend fun s => { s with running := some .emitLatch }.enterLatch .emitLatch

end Sys2Proof.Machine
end

