-- ==== Sys2Proof/Machine/PixelBuffer.lean ====
section
/-! DEFINITION. The PixelBuffer commands (spec/40_pixelbuffer_ops.md): SET_PIXEL, SET_PIXEL_PACKED, GET_PIXEL_PACKED,
RESIZE, PACK. None reads FSM or BACKEND, none appends to WIRE. -/

namespace Sys2Proof.Machine

/-- Writing the pixel at `index` when it is in range; otherwise nothing (R35, R122). Status OK in both cases. -/
def storePixel (index : Half) (p : StoredPixel) (s : State) : Host.Outcome State Fault Refusal :=
  if index < s.length then
    match s.memWritePixel (pixelAddress index) p with
    | .ok t => .next (t.complete .ok 0)
    | .error f => .fault f
  else .next (s.complete .ok 0)

/-- SET_PIXEL (R71): `[g | 0x80, r | 0x80, b | 0x80]` at `3 * index`. -/
def execSetPixel (index : Half) (r g b : Byte) (s : State) : Host.Outcome State Fault Refusal :=
  storePixel index { green := markByte g, red := markByte r, blue := markByte b } s

/-- SET_PIXEL_PACKED (R72): the bytes of the word, each with bit 7 set; bits 31:24, 23, 15 and 7 do not matter (R65). -/
def execSetPixelPacked (index : Half) (color : Word) (s : State) : Host.Outcome State Fault Refusal :=
  storePixel index
    { green := markByte (greenByteOf color), red := markByte (redByteOf color), blue := markByte (blueByteOf color) } s

/-- GET_PIXEL_PACKED (R73): the three bytes with their markers stripped, or 0 out of range. It changes no state but the
response (R38). -/
def execGetPixelPacked (index : Half) (s : State) : Host.Outcome State Fault Refusal :=
  if index < s.length then
    match s.memReadPixel (pixelAddress index) with
    | .ok p => .next (s.complete .ok (placeBytes (stripByte p.green) (stripByte p.red) (stripByte p.blue)))
    | .error f => .fault f
  else .next (s.complete .ok 0)

/-- RESIZE (R74): FSM, BACKEND, WIRE and the lines are untouched; nothing is sent (D26). -/
def execResize (newLength : Half) (s : State) : Host.Outcome State Fault Refusal :=
  .next (s.newStore newLength)

/-- PACK (R75): a pure function of its operands. -/
def execPack (r g b : Byte) (s : State) : Host.Outcome State Fault Refusal :=
  .next (s.complete .ok (packColour r g b))

end Sys2Proof.Machine
end

