-- ==== Sys2Proof/Machine/SerialBackend.lean ====
section
/-! DEFINITION. The two wire units of the opcode table (spec/30_encoding.md R51, R52) as instructions of the serialiser:
each sends its byte through the active backend by `emit_byte` (spec/42_serial_backend.md R100, R101). They are no host
commands: they complete nothing, so STATUS and RESULT stay (log 5). -/

namespace Sys2Proof.Machine

/-- COLOUR_BYTE: `emit_byte(1iiiiiii)`. -/
def execColourByte (intensity : BitVec 7) (s : State) : Host.Outcome State Fault Refusal :=
  s.throughActiveBackend (State.emitByte (colourByteOf intensity))

/-- LATCH_BYTE: `emit_byte(0x00)`. -/
def execLatchByte (s : State) : Host.Outcome State Fault Refusal :=
  s.throughActiveBackend (State.emitByte 0x00#8)

end Sys2Proof.Machine
end

