-- ==== Sys2Proof/Machine/StripTransmitter.lean ====
section
/-! DEFINITION. The StripTransmitter commands (spec/41_transmitter_ops.md): CONSTRUCT_NATIVE, CONSTRUCT_PINS,
SELECT_NATIVE, SELECT_PINS, ACTIVATE, TRANSMIT, LATCH_LENGTH, EMIT_LATCH. Each is one atomic step (R37). -/

namespace Sys2Proof.Machine

/-- CONSTRUCT_NATIVE (R80): selection first, then allocation; a failed allocation does not undo the selection (R126). -/
def execConstructNative (length : Half) (s : State) : Host.Outcome State Fault Refusal :=
  .next ((s.select .native).newStore length)

/-- CONSTRUCT_PINS (R81). -/
def execConstructPins (length : Half) (dataPin clockPin : Byte) (slow : Bool) (s : State) :
    Host.Outcome State Fault Refusal :=
  .next ((s.select (.manual dataPin clockPin slow)).newStore length)

/-- SELECT_NATIVE (R82): availability is checked at ACTIVATE, not here. -/
def execSelectNative (s : State) : Host.Outcome State Fault Refusal :=
  .next ((s.select .native).complete .ok 0)

/-- SELECT_PINS (R83). -/
def execSelectPins (dataPin clockPin : Byte) (slow : Bool) (s : State) : Host.Outcome State Fault Refusal :=
  .next ((s.select (.manual dataPin clockPin slow)).complete .ok 0)

/-- ACTIVATE (R84): unavailable with nothing changed and nothing sent (R123), or the backend enabled, state Active, and
the initial latch sequence. No settle delay follows (D11). -/
def execActivate (s : State) : Host.Outcome State Fault Refusal :=
  match s.enableEvents with
  | none => .next (s.raise .backendUnavailable)
  | some evs => .next (s.enable evs).emitLatchSequence.finish

/-- TRANSMIT (R85): the colour bytes in ascending address order, the latch sequence, the settle delay; stored bytes are
sent unchanged (R8). -/
def execTransmit (s : State) : Host.Outcome State Fault Refusal :=
  s.throughActiveBackend fun s => (s.emitBytes s.colourBytes).emitLatchSequence.settleDelay.finish

/-- LATCH_LENGTH (R86): a pure function of its operand; it stores nothing (C9). -/
def execLatchLength (length : Half) (s : State) : Host.Outcome State Fault Refusal :=
  .next (s.complete .ok (BitVec.ofNat 32 (latchLen length)))

/-- EMIT_LATCH (R87): a latch sequence and nothing else. -/
def execEmitLatch (s : State) : Host.Outcome State Fault Refusal :=
  s.throughActiveBackend fun s => s.emitLatchSequence.finish

end Sys2Proof.Machine
end

