-- ==== Sys2Proof/Machine/Dispatch.lean ====
section
/-! DEFINITION. The dispatch: one arm per constructor of Instr, each one call of its meaning. -/

namespace Sys2Proof.Machine

def exec (i : Instr) (s : State) : Host.Outcome State Fault Refusal :=
  match i with
  | .constructNative length => Sys2Proof.Machine.execConstructNative length s
  | .constructPins length d c slow => Sys2Proof.Machine.execConstructPins length d c slow s
  | .selectNative => Sys2Proof.Machine.execSelectNative s
  | .selectPins d c slow => Sys2Proof.Machine.execSelectPins d c slow s
  | .activate => Sys2Proof.Machine.execActivate s
  | .setPixel index r g b => Sys2Proof.Machine.execSetPixel index r g b s
  | .setPixelPacked index color => Sys2Proof.Machine.execSetPixelPacked index color s
  | .getPixelPacked index => Sys2Proof.Machine.execGetPixelPacked index s
  | .transmit => Sys2Proof.Machine.execTransmit s
  | .resize newLength => Sys2Proof.Machine.execResize newLength s
  | .pack r g b => Sys2Proof.Machine.execPack r g b s
  | .latchLength length => Sys2Proof.Machine.execLatchLength length s
  | .emitLatch => Sys2Proof.Machine.execEmitLatch s
  | .colourByte intensity => Sys2Proof.Machine.execColourByte intensity s
  | .latchByte => Sys2Proof.Machine.execLatchByte s

end Sys2Proof.Machine
end

