-- ==== Sys2Proof/Machine/Fetch.lean ====
section
/-! DEFINITION. The command port: what step takes from it and does with it (spec/30_encoding.md R60, R63;
spec/20_memory.md R37; log 6). -/

namespace Sys2Proof.Machine

/-- The refusal for a unit that names no instruction (R63, R64). -/
def refusalOf : DecodeError → Refusal
  | .reservedOpcode opcode => .reservedOpcode opcode
  | .unsentWireByte b => .unsentWireByte b

/-- A presented unit is decoded and executed to completion before the next one is taken (R37, R40). -/
def State.accept (p : Presented) (s : State) : Host.Outcome State Fault Refusal :=
  match decode p with
  | .ok i => exec i s
  | .error e => .refused (refusalOf e)

/-- Between commands: the next presented unit is taken from the port; with none, the block waits, its outputs held
(R135, R141). -/
def State.takeCommand (s : State) : Host.Outcome State Fault Refusal :=
  match s.port with
  | [] => .next s
  | p :: rest => State.accept p { s with port := rest }

/-- A unit presented so that it is the next one taken, the block being ready for a command (R145). A command in progress
is DISCARDED: `running`, the cursor and the settle timer are cleared, and what that command had still to send, its settle
delay and its completion never happen. The spec gives such an overlap no meaning (U2, D16) and the block no abort (R151):
DESIGN CHOICE, unsafe for a claim about a unit presented while a command is in progress (log 6). `step` never does this:
it goes on with a command in progress and takes nothing from the port meanwhile. -/
def State.present (p : Presented) (s : State) : State :=
  { s with port := p :: s.port, running := none, txc := Txc.idle, settleRunning := false }

end Sys2Proof.Machine
end

