-- ==== Sys2Proof/Machine/Step.lean ====
section
/-! DEFINITION. One step: a command in progress moves on by one cursor position, otherwise the next command is taken. -/

namespace Sys2Proof.Machine

/-- One step. From a state with no command in progress a step executes one whole command (R37), so a run from reset
never has one in progress; a state that has one goes on with it, and takes no command meanwhile (R145). -/
def step (s : State) : Host.Outcome State Fault Refusal :=
  match s.running with
  | some c => .next (s.cursorStep c)
  | none => s.takeCommand

/-- The unit of `nbits` bits `w` presented at the command port as the next one; a command in progress is discarded
(DESIGN CHOICE, log 6). -/
def State.withFetchWord (s : State) (nbits w : Nat) : State :=
  match presentedOfTable nbits w with
  | some p => s.present p
  | none => s

end Sys2Proof.Machine
end

