-- ==== Sys2Proof/Machine/Bench.lean ====
section
/-! DEFINITION. Several framers (spec/10_state.md R24): independent copies of the state, each with its own WIRE. -/

namespace Sys2Proof.Machine

/-- One command issued to instance `k`; `none` when there is no such instance. -/
def benchExec (k : Nat) (i : Instr) (bench : List State) : Option (Host.Outcome (List State) Fault Refusal) :=
  match bench[k]? with
  | none => none
  | some s =>
    match exec i s with
    | .next t => some (.next (bench.set k t))
    | .fault f => some (.fault f)
    | .refused r => some (.refused r)

end Sys2Proof.Machine
end

