-- ==== Sys2Proof/Machine/Written.lean ====
section
/-! DEFINITION. The written syntax of spec/30_encoding.md R67 and the pseudo-commands with their expansions. -/

namespace Sys2Proof

/-- The mnemonic of the opcode table's row. -/
def Instr.mnemonic : Instr → String
  | .constructNative _ => "CONSTRUCT_NATIVE"
  | .constructPins _ _ _ _ => "CONSTRUCT_PINS"
  | .selectNative => "SELECT_NATIVE"
  | .selectPins _ _ _ => "SELECT_PINS"
  | .activate => "ACTIVATE"
  | .setPixel _ _ _ _ => "SET_PIXEL"
  | .setPixelPacked _ _ => "SET_PIXEL_PACKED"
  | .getPixelPacked _ => "GET_PIXEL_PACKED"
  | .transmit => "TRANSMIT"
  | .resize _ => "RESIZE"
  | .pack _ _ _ => "PACK"
  | .latchLength _ => "LATCH_LENGTH"
  | .emitLatch => "EMIT_LATCH"
  | .colourByte _ => "COLOUR_BYTE"
  | .latchByte => "LATCH_BYTE"

/-- The operands in the order of R59's table. -/
def Instr.operands : Instr → List Nat
  | .constructNative n => [n.toNat]
  | .constructPins n d c slow => [n.toNat, d.toNat, c.toNat, slow.toNat]
  | .selectNative => []
  | .selectPins d c slow => [d.toNat, c.toNat, slow.toNat]
  | .activate => []
  | .setPixel i r g b => [i.toNat, r.toNat, g.toNat, b.toNat]
  | .setPixelPacked i c => [i.toNat, c.toNat]
  | .getPixelPacked i => [i.toNat]
  | .transmit => []
  | .resize n => [n.toNat]
  | .pack r g b => [r.toNat, g.toNat, b.toNat]
  | .latchLength n => [n.toNat]
  | .emitLatch => []
  | .colourByte i => [i.toNat]
  | .latchByte => []

/-- A command as R67 writes it: the mnemonic, then the operands separated by commas, in decimal. -/
def Instr.written (i : Instr) : String :=
  match i.operands with
  | [] => i.mnemonic
  | os => i.mnemonic ++ " " ++ String.intercalate ", " (os.map fun n => toString n)

/-- A pin configuration as the host passes it to `construct` (R12, R67). -/
structure PinConfig where
  dataPin : Byte
  clockPin : Byte
  slow : Bool
deriving DecidableEq, Repr

/-- The pseudo-commands of R67: the source's own names of the operations. -/
inductive Pseudo where
  | construct (length : Half) (pins : Option PinConfig)
  | set (index : Half) (r g b : Byte)
  | setPixel (index : Half) (r g b : Byte)
  | setPacked (index : Half) (color : Word)
  | setPixelPacked (index : Half) (color : Word)
  | getPacked (index : Half)
  | getPixelPacked (index : Half)
  | setLatchLength (n : Half)
deriving DecidableEq, Repr

/-- Their expansions (R67): an omitted pin configuration means the native peripheral. -/
def Pseudo.expand : Pseudo → Instr
  | .construct length none => .constructNative length
  | .construct length (some p) => .constructPins length p.dataPin p.clockPin p.slow
  | .set i r g b => .setPixel i r g b
  | .setPixel i r g b => .setPixel i r g b
  | .setPacked i c => .setPixelPacked i c
  | .setPixelPacked i c => .setPixelPacked i c
  | .getPacked i => .getPixelPacked i
  | .getPixelPacked i => .getPixelPacked i
  | .setLatchLength n => .latchLength n

end Sys2Proof
end

