-- ==== Sys2Proof/Machine/Wire.lean ====
section
/-! DEFINITION. What is observed of WIRE (spec/42_serial_backend.md R108, R109): the bits the strip is clocked, the same
grouped in bytes, the bits of each frame, and the stretches that belong to one line. -/

namespace Sys2Proof.Machine

/-- `wire_bits`, left to right, carrying the data level (R108): eight bits for a native byte, the tracked level for each
`ClkHigh`. -/
def wireBitsFrom : Bool → List Event → List Bool
  | _, [] => []
  | level, .nativeByte b :: es =>
    [b.getLsbD 7, b.getLsbD 6, b.getLsbD 5, b.getLsbD 4, b.getLsbD 3, b.getLsbD 2, b.getLsbD 1, b.getLsbD 0]
      ++ wireBitsFrom level es
  | _, .pinsOutput _ _ :: es => wireBitsFrom false es
  | _, .dat v :: es => wireBitsFrom v es
  | level, .clkHigh :: es => level :: wireBitsFrom level es
  | level, .nativeBegin :: es => wireBitsFrom level es
  | level, .nativeSetClock _ :: es => wireBitsFrom level es
  | level, .nativeEnd :: es => wireBitsFrom level es
  | level, .clkLow :: es => wireBitsFrom level es
  | level, .pinsRelease _ _ :: es => wireBitsFrom level es
  | level, .settle _ :: es => wireBitsFrom level es

/-- `wire_bits(WIRE)`. The level before the first event is never read: every `ClkHigh` follows a `Dat` (R108; log 12). -/
def wireBits (es : List Event) : List Bool := wireBitsFrom false es

/-- Eight bits as a byte, the first one bit 7 (R109). -/
def byteOfBits (b7 b6 b5 b4 b3 b2 b1 b0 : Bool) : Byte :=
  [b7, b6, b5, b4, b3, b2, b1, b0].foldl (fun acc v => (acc <<< 1) ||| (BitVec.ofBool v).setWidth 8) 0#8

/-- Grouping in eights from the first bit (R109). No command leaves a remainder; a remainder is no byte (log 12). -/
def bytesOfBits : List Bool → List Byte
  | b7 :: b6 :: b5 :: b4 :: b3 :: b2 :: b1 :: b0 :: rest => byteOfBits b7 b6 b5 b4 b3 b2 b1 b0 :: bytesOfBits rest
  | _ => []

/-- `wire_bytes(WIRE)` (R109). -/
def wireBytes (es : List Event) : List Byte := bytesOfBits (wireBits es)

/-- The data level after a sequence of events (R108). -/
def levelAfter : Bool → List Event → Bool
  | level, [] => level
  | _, .pinsOutput _ _ :: es => levelAfter false es
  | _, .dat v :: es => levelAfter v es
  | level, .nativeByte _ :: es => levelAfter level es
  | level, .clkHigh :: es => levelAfter level es
  | level, .nativeBegin :: es => levelAfter level es
  | level, .nativeSetClock _ :: es => levelAfter level es
  | level, .nativeEnd :: es => levelAfter level es
  | level, .clkLow :: es => levelAfter level es
  | level, .pinsRelease _ _ :: es => levelAfter level es
  | level, .settle _ :: es => levelAfter level es

/-- The events cut wherever `cut` says so; the cutting events are dropped. -/
def cutEvents (cut : Event → Bool) : List Event → List (List Event)
  | [] => [[]]
  | e :: es =>
    if cut e then [] :: cutEvents cut es
    else
      match cutEvents cut es with
      | [] => [[e]]
      | part :: parts => (e :: part) :: parts

/-- The bits of each part, the data level carried from one part to the next. -/
def bitsOfParts : Bool → List (List Event) → List (List Bool)
  | _, [] => []
  | level, part :: parts => wireBitsFrom level part :: bitsOfParts (levelAfter level part) parts

/-- Is the event a settle delay? -/
def Event.isSettle : Event → Bool
  | .settle _ => true
  | _ => false

/-- Does the event end a line's stream (R109: "splits WIRE at NativeEnd and PinsRelease events")? -/
def Event.endsLine : Event → Bool
  | .nativeEnd => true
  | .pinsRelease _ _ => true
  | _ => false

/-- `wire_frames(WIRE)` (R108): `wire_bits` cut at every `Settle`. -/
def wireFrames (es : List Event) : List (List Bool) := bitsOfParts false (cutEvents Event.isSettle es)

/-- WIRE split at the events after which the bits go to a different line (R109). -/
def wireLines (es : List Event) : List (List Event) := cutEvents Event.endsLine es

end Sys2Proof.Machine
end

