-- ==== Sys2Proof/Safety.lean ====
section
/-! DEFINITION. Runs (spec/70_reset_and_hazards.md R155), the invariants of the machine, and what each command sends and
where it leads, in the terms the statements use. -/

namespace Sys2Proof.Machine

/-! ### Runs -/

/-- A run: a list of commands, each executed to completion, and the responses in order; a run with a refused command
has no result (R155). -/
def runCommands : List Instr → State → Host.Outcome (State × List (BitVec 4 × Word)) Fault Refusal
  | [], s => .next (s, [])
  | i :: is, s =>
    match exec i s with
    | .next t =>
      match runCommands is t with
      | .next (u, responses) => .next (u, t.response :: responses)
      | .fault f => .fault f
      | .refused r => .refused r
    | .fault f => .fault f
    | .refused r => .refused r

/-- The host commands are the first thirteen rows; the two wire units are none (R59, log 5). -/
def isCommand : Instr → Bool
  | .constructNative _ => true
  | .constructPins _ _ _ _ => true
  | .selectNative => true
  | .selectPins _ _ _ => true
  | .activate => true
  | .setPixel _ _ _ _ => true
  | .setPixelPacked _ _ => true
  | .getPixelPacked _ => true
  | .transmit => true
  | .resize _ => true
  | .pack _ _ _ => true
  | .latchLength _ => true
  | .emitLatch => true
  | .colourByte _ => false
  | .latchByte => false

/-- The instructions that send only in state Active (R89, R130): TRANSMIT, EMIT_LATCH, and the wire units. -/
def needsActive : Instr → Bool
  | .transmit => true
  | .emitLatch => true
  | .colourByte _ => true
  | .latchByte => true
  | _ => false

/-! ### Where a command leads and what it sends -/

/-- Is a manual backend selected? -/
def Backend.isManual : Backend → Bool
  | .manual _ _ _ => true
  | _ => false

/-- Can ACTIVATE enable the backend (R84, R123)? -/
def activationAvailable (s : State) : Bool :=
  s.fsm != .uninitialized && s.backend != .none && (s.backend != .native || s.cfg.nativePresent)

/-- The next FSM of the table of R89, for an instruction that is not refused. -/
def nextFsm (i : Instr) (s : State) : Fsm :=
  match i with
  | .constructNative _ => .configured
  | .constructPins _ _ _ _ => .configured
  | .selectNative => .configured
  | .selectPins _ _ _ => .configured
  | .activate => if activationAvailable s then .active else s.fsm
  | _ => s.fsm

/-- The bytes an instruction clocks to the strip (R84, R85, R87, R100, R101), for one that is not refused. -/
def sentBytes (i : Instr) (s : State) : List Byte :=
  match i with
  | .activate => if activationAvailable s then s.latchBytes else []
  | .transmit => s.frameBytes
  | .emitLatch => s.latchBytes
  | .colourByte intensity => [colourByteOf intensity]
  | .latchByte => [0x00#8]
  | _ => []

/-- The bytes a list of instructions clocks to the strip, in order. -/
def sentByRun : List Instr → State → List Byte
  | [], _ => []
  | i :: is, s =>
    match exec i s with
    | .next t => sentBytes i s ++ sentByRun is t
    | .fault _ => []
    | .refused _ => []

/-- How many settle delays an instruction performs: one for TRANSMIT, none for any other (R94). -/
def settleCount (i : Instr) : Nat :=
  match i with
  | .transmit => 1
  | _ => 0

/-! ### Invariants -/

/-- The store is canonical, inside its size, and every byte has bit 7 set (R14, R15). -/
abbrev StoreInv (s : State) : Prop :=
  Memory.wf s.pix ∧ (∀ c ∈ s.pix, c.1 < s.storeSize) ∧ ∀ c ∈ s.pix, c.2.getLsbD 7 = true

/-- Between commands nothing is in progress (R18, R21, U18); no backend exactly in Uninitialized (R12); Active on the
native backend only where it is present (R89). -/
abbrev ControlInv (s : State) : Prop :=
  s.running = none ∧ s.txc = Txc.idle ∧ s.settleRunning = false
    ∧ (s.fsm = .uninitialized ↔ s.backend = .none)
    ∧ (s.fsm = .active → s.backend = .native → s.cfg.nativePresent = true)

/-- The pins are driven exactly in Active on a manual backend, the native peripheral is on exactly in Active on the
native one (R20), and between commands the clock is low while the pins are driven (R20, R135). -/
abbrev LinesInv (s : State) : Prop :=
  (s.lines.drive = true ↔ s.fsm = .active ∧ s.backend.isManual = true)
    ∧ (s.lines.nativeOn = true ↔ s.fsm = .active ∧ s.backend = .native)
    ∧ (s.lines.drive = true → s.lines.clk = false)

/-- Whole bytes on the wire, each 0x00 or with bit 7 set (R64, R109). -/
abbrev WireInv (s : State) : Prop :=
  (wireBits s.wire).length % 8 = 0 ∧ ∀ b ∈ wireBytes s.wire, b = 0x00#8 ∨ b.getLsbD 7 = true

/-- The invariant of the machine between commands. -/
abbrev MachineInv (s : State) : Prop := StoreInv s ∧ ControlInv s ∧ LinesInv s ∧ WireInv s

/-- The ranges of the cursor's fields (R18), the settle timer runs exactly in phase Settle (R21), and the cursor is away
from Idle exactly while a command is in progress. The two indices being 0 in phase Settle is the model's choice (log
7). -/
abbrev CursorInv (s : State) : Prop :=
  (s.txc.phase = .colour → s.txc.byteIx.toNat < s.storeSize)
    ∧ (s.txc.phase = .latch → s.txc.byteIx.toNat < latchLen s.length)
    ∧ (s.backend = .native → s.txc.bitIx = 0)
    ∧ (s.txc.phase = .settle → s.txc = { phase := .settle, byteIx := 0, bitIx := 0 })
    ∧ (s.txc.phase = .idle → s.txc = Txc.idle)
    ∧ (s.settleRunning = true ↔ s.txc.phase = .settle)
    ∧ (s.running = none ↔ s.txc.phase = .idle)

/-! ### What selection and allocation leave -/

/-- What selecting a backend does to WIRE and the lines between `s` and `t` (R82, R88): nothing unless Active; the old
backend's quiesce event and its line off when Active. The levels of released pins are free (R20). -/
def QuiescedInto (s t : State) : Prop :=
  (s.fsm ≠ .active → t.wire = s.wire ∧ t.lines = s.lines)
    ∧ (s.fsm = .active → s.backend = .none → t.wire = s.wire ∧ t.lines = s.lines)
    ∧ (s.fsm = .active → s.backend = .native →
        t.wire = s.wire ++ [.nativeEnd] ∧ t.lines = { s.lines with nativeOn := false })
    ∧ (s.fsm = .active → ∀ d c slow, s.backend = .manual d c slow →
        t.wire = s.wire ++ [.pinsRelease d c]
          ∧ t.lines = { s.lines with drive := false, dat := t.lines.dat, clk := t.lines.clk })

/-- What NEW and RESIZE leave in `t`, for the parameters `cfg` and the length `n` (R70, R74, R121): the new store with
every byte off, or the empty one. -/
def AllocatedInto (cfg : Config) (n : Half) (t : State) : Prop :=
  (allocOk cfg n = true →
      t.status = .ok ∧ t.length = n ∧ (∀ a, a < 3 * n.toNat → t.pixByte a = some 0x80#8)
        ∧ ∀ a, 3 * n.toNat ≤ a → t.pixByte a = none)
    ∧ (allocOk cfg n = false →
      t.status = .allocationFailure ∧ t.length = 0 ∧ t.pix = [] ∧ ∀ a, t.pixByte a = none)

/-! ### Comparing runs -/

/-- The next state of an outcome, changed by `f`; faults and refusals as they are. -/
def mapNext (f : State → State) : Host.Outcome State Fault Refusal → Host.Outcome State Fault Refusal
  | .next s => .next (f s)
  | .fault e => .fault e
  | .refused r => .refused r

/-- The state with the slow bit of a manual backend cleared (R105). -/
def eraseSlow (s : State) : State :=
  match s.backend with
  | .none => s
  | .native => s
  | .manual d c _ => { s with backend := .manual d c false }

/-- The state with the levels of undriven pins put to 0: what a comparison may look at (R20, U5). -/
def maskFloating (s : State) : State :=
  if s.lines.drive then s else { s with lines := { s.lines with dat := false, clk := false } }

end Sys2Proof.Machine
end

