-- ==== Sys2Proof/Certificates/Slice0/Obligations.lean ====
section
/-! DEFINITION. The statements for the provers. "Model's choice" in a docstring names the log entry, or the decision of
spec/92_eei_decisions.md, that a clause rests on. -/

open Sys2Proof Sys2Proof.Machine

/-! ### Encoding -/

/-- Decoding the encoding of an instruction gives it back, every operand at every value. The command word's layout is
the spec's own choice (D2). -/
def Obligations.DecodeInvertsEncode : Prop :=
  ∀ i : Instr, i.wellFormed = true → decode (encode i) = .ok i

/-- A well-formed unit (an assigned opcode with the ignored bits 0, or a wire byte the block sends) names an
instruction, and the instruction's encoding is that unit (D2). -/
def Obligations.EncodeInvertsDecodeOnPrintedWords : Prop :=
  ∀ p : Presented, p.wellFormed = true → ∃ i, decode p = .ok i ∧ encode i = p

/-- "Ignored bits do not affect decoding": a word decodes as it does with its ignored bits cleared (D2). -/
def Obligations.IgnoredBitsDoNotAffectDecoding : Prop :=
  ∀ (w mask : CommandWord), usedBits (opcodeField w).toNat = some mask →
    decodeCommand w = decodeCommand (w &&& mask)

/-- Opcodes 0, 14 and 15, and no others, name no command; a step presented such a word refuses it (D2, U9). -/
def Obligations.ReservedOpcodesAreRefused : Prop :=
  ∀ w : CommandWord,
    ((∃ e, decode (.command w) = .error e) ↔ opcodeField w = 0#4 ∨ opcodeField w = 14#4 ∨ opcodeField w = 15#4)
      ∧ ∀ (s : State) (rest : List Presented), s.running = none → s.port = .command w :: rest →
          (opcodeField w = 0#4 ∨ opcodeField w = 14#4 ∨ opcodeField w = 15#4) →
          step s = .refused (.reservedOpcode (opcodeField w))

/-- A wire unit is told apart by bit 7; the latch byte is 0x00; 0x01 to 0x7F, never sent, name nothing (model's choice,
log 8). -/
def Obligations.WireUnitsAreToldApartByBitSeven : Prop :=
  ∀ b : Byte,
    (b.getLsbD 7 = true → decode (.wireUnit b) = .ok (.colourByte (b.extractLsb' 0 7)))
      ∧ (b = 0x00#8 → decode (.wireUnit b) = .ok .latchByte)
      ∧ (b.getLsbD 7 = false → b ≠ 0x00#8 → decode (.wireUnit b) = .error (.unsentWireByte b))

/-- Words written out from the spec's encoding decode to what they stand for (D2). -/
def Obligations.WrittenWordsDecode : Prop :=
  decode (.command 0x2000102038000000) = .ok (.constructPins 1 2 3 true)
    ∧ decode (.command 0x6000400FF0000000) = .ok (.setPixel 4 0 255 0)
    ∧ decode (.command 0x7002000C88C83000) = .ok (.setPixelPacked 32 0x00C88C83)
    ∧ decode (.command 0xC002100000000000) = .ok (.latchLength 33)
    ∧ decode (.wireUnit 0xC8) = .ok (.colourByte 72)
    ∧ decode (.wireUnit 0x00) = .ok .latchByte

/-! ### The step -/

/-- With no command in progress, a step takes the unit at the head of the port and is exec of the instruction it decodes
to, at the state whose port has lost that unit (the port is the model's choice, log 6). -/
def Obligations.StepRunsTheDecodedInstruction : Prop :=
  ∀ (s : State) (p : Presented) (rest : List Presented) (i : Instr),
    s.running = none → s.port = p :: rest → decode p = .ok i → i.wellFormed = true →
      step s = exec i { s with port := rest }

/-- With no command in progress and none presented the block waits, its outputs held (model's choice of a step that
changes nothing, log 6). -/
def Obligations.BlockWaitsForACommand : Prop :=
  ∀ s : State, s.running = none → s.port = [] → step s = .next s

/-! ### PixelBuffer commands -/

/-- SET_PIXEL, whole: in range the three bytes at `3 * index` are green, red, blue with bit 7 forced and every other byte
reads as before; out of range the store is unchanged; status OK, result 0; nothing else changes. -/
def Obligations.SetPixelStoresGreenRedBlue : Prop :=
  ∀ (s : State) (index : Half) (r g b : Byte),
    encode (.setPixel index r g b) = .command (6#4 ++ index ++ r ++ g ++ b ++ 0#20)
      ∧ ∃ t, exec (.setPixel index r g b) s = .next t
        ∧ t = { s with pix := t.pix, status := .ok, result := 0 }
        ∧ (index < s.length →
            t.pixByte (pixelAddress index) = some (g ||| 0x80#8)
              ∧ t.pixByte (pixelAddress index + 1) = some (r ||| 0x80#8)
              ∧ t.pixByte (pixelAddress index + 2) = some (b ||| 0x80#8)
              ∧ ∀ a, a < pixelAddress index ∨ pixelAddress index + 3 ≤ a → t.pixByte a = s.pixByte a)
        ∧ (s.length ≤ index → t.pix = s.pix)

/-- SET_PIXEL_PACKED, whole: the bytes 23:16, 15:8, 7:0 of the word go to green, red, blue with bit 7 forced; otherwise
as SET_PIXEL, and the effect is that of SET_PIXEL on the unpacked channels. -/
def Obligations.SetPixelPackedStoresTheWordsBytes : Prop :=
  ∀ (s : State) (index : Half) (color : Word),
    encode (.setPixelPacked index color) = .command (7#4 ++ index ++ color ++ 0#12)
      ∧ ∃ t, exec (.setPixelPacked index color) s = .next t
        ∧ t = { s with pix := t.pix, status := .ok, result := 0 }
        ∧ (index < s.length →
            t.pixByte (pixelAddress index) = some (color.extractLsb' 16 8 ||| 0x80#8)
              ∧ t.pixByte (pixelAddress index + 1) = some (color.extractLsb' 8 8 ||| 0x80#8)
              ∧ t.pixByte (pixelAddress index + 2) = some (color.extractLsb' 0 8 ||| 0x80#8)
              ∧ ∀ a, a < pixelAddress index ∨ pixelAddress index + 3 ≤ a → t.pixByte a = s.pixByte a)
        ∧ (s.length ≤ index → t.pix = s.pix)
        ∧ exec (.setPixel index ((unpackColour color).1.setWidth 8) ((unpackColour color).2.1.setWidth 8)
            ((unpackColour color).2.2.setWidth 8)) s = .next t

/-- GET_PIXEL_PACKED, whole: the three stored bytes masked to 7 bits at bits 16, 8 and 0, bits 31:24, 23, 15 and 7 clear;
which is the packed form without its markers; 0 out of range, and 0 for every pixel of a store that NEW or RESIZE has
just left; status OK; no state but the response changes. -/
def Obligations.GetPixelPackedReturnsTheMaskedBytes : Prop :=
  ∀ (s : State) (index : Half),
    encode (.getPixelPacked index) = .command (8#4 ++ index ++ 0#44)
      ∧ ∃ t, exec (.getPixelPacked index) s = .next t
        ∧ t = { s with status := .ok, result := t.result }
        ∧ (index < s.length → ∃ g r b : Byte,
            s.pixByte (pixelAddress index) = some g
              ∧ s.pixByte (pixelAddress index + 1) = some r
              ∧ s.pixByte (pixelAddress index + 2) = some b
              ∧ t.result = ((g &&& 0x7F#8).setWidth 32 <<< 16) ||| ((r &&& 0x7F#8).setWidth 32 <<< 8)
                  ||| (b &&& 0x7F#8).setWidth 32
              ∧ t.result = packColour r g b &&& 0x007F7F7F#32)
        ∧ t.result &&& 0xFF808080#32 = 0
        ∧ (s.length ≤ index → t.result = 0)
        ∧ ∀ (n : Half) (d c : Byte) (slow : Bool) (u : State),
            exec (.resize n) s = .next u ∨ exec (.constructNative n) s = .next u
              ∨ exec (.constructPins n d c slow) s = .next u →
            exec (.getPixelPacked index) u = .next { u with status := .ok, result := 0 }

/-- RESIZE: a new store with every byte off, or the degraded strip (D27); transmitter, WIRE and lines untouched (D26). -/
def Obligations.ResizeReplacesTheStore : Prop :=
  ∀ (s : State) (n : Half),
    ∃ t, exec (.resize n) s = .next t
      ∧ t = { s with length := t.length, pix := t.pix, status := t.status, result := 0 }
      ∧ AllocatedInto s.cfg n t

/-- PACK, whole: the canonical packed form, whatever the state, which keeps everything but the response. -/
def Obligations.PackForcesTheMarkerBits : Prop :=
  ∀ (s : State) (r g b : Byte),
    encode (.pack r g b) = .command (11#4 ++ 0#16 ++ r ++ g ++ b ++ 0#20)
      ∧ exec (.pack r g b) s = .next { s with
          status := .ok
          result := ((g ||| 0x80#8).setWidth 32 <<< 16) ||| ((r ||| 0x80#8).setWidth 32 <<< 8)
            ||| (b ||| 0x80#8).setWidth 32 }

/-- The packed form has its three marker bits set and its top byte clear, and unpacking it gives the low 7 bits of the
three operands. -/
def Obligations.UnpackOfPackIsTheLowSevenBits : Prop :=
  ∀ r g b : Byte,
    packColour r g b &&& 0xFF808080#32 = 0x00808080#32
      ∧ unpackColour (packColour r g b) = (r.extractLsb' 0 7, g.extractLsb' 0 7, b.extractLsb' 0 7)

/-- An index at or above LENGTH touches nothing and is no error: the two writes change no state but the response, the
read answers 0, and with LENGTH = 0 that is every index. -/
def Obligations.OutOfRangeIndexIsSilent : Prop :=
  ∀ (s : State) (index : Half) (r g b : Byte) (color : Word),
    (s.length ≤ index ∨ s.length = 0) →
      exec (.setPixel index r g b) s = .next { s with status := .ok, result := 0 }
        ∧ exec (.setPixelPacked index color) s = .next { s with status := .ok, result := 0 }
        ∧ exec (.getPixelPacked index) s = .next { s with status := .ok, result := 0 }

/-- The round-trip laws in range: what SET_PIXEL or SET_PIXEL_PACKED stored is what GET_PIXEL_PACKED returns, without
the marker bits; the packed form of three channels stores what the channels store, and so does any word and its
unpacked channels. -/
def Obligations.PixelRoundTrips : Prop :=
  ∀ (s : State) (i : Half) (r g b : Byte) (c : Word), i < s.length →
    (∃ t u, exec (.setPixel i r g b) s = .next t ∧ exec (.getPixelPacked i) t = .next u
        ∧ u.result = ((g &&& 0x7F#8).setWidth 32 <<< 16) ||| ((r &&& 0x7F#8).setWidth 32 <<< 8)
            ||| (b &&& 0x7F#8).setWidth 32)
      ∧ (∃ t u, exec (.setPixelPacked i c) s = .next t ∧ exec (.getPixelPacked i) t = .next u
        ∧ u.result = c &&& 0x007F7F7F#32)
      ∧ exec (.setPixelPacked i (packColour r g b)) s = exec (.setPixel i r g b) s
      ∧ exec (.setPixelPacked i c) s = exec (.setPixel i ((unpackColour c).1.setWidth 8)
          ((unpackColour c).2.1.setWidth 8) ((unpackColour c).2.2.setWidth 8)) s

/-- Setting two different pixels in either order leaves the same bytes in the store. -/
def Obligations.DifferentPixelsAreIndependent : Prop :=
  ∀ (s t u v w : State) (i j : Half) (r g b r' g' b' : Byte), i ≠ j →
    exec (.setPixel i r g b) s = .next t → exec (.setPixel j r' g' b') t = .next u →
    exec (.setPixel j r' g' b') s = .next v → exec (.setPixel i r g b) v = .next w →
      ∀ a, u.pixByte a = w.pixByte a

/-! ### The latch length -/

/-- LATCH_LENGTH answers `ceil(n / 32)`, one byte per 32 LEDs: the least `q` with `32 * q >= n`; nothing but the response
changes, whatever the state and the parameters. -/
def Obligations.LatchLengthIsOneBytePerThirtyTwoLeds : Prop :=
  ∀ (s : State) (n : Half),
    ∃ t, exec (.latchLength n) s = .next t
      ∧ t = { s with status := .ok, result := t.result }
      ∧ n.toNat ≤ 32 * t.result.toNat
      ∧ ∀ q, n.toNat ≤ 32 * q → t.result.toNat ≤ q

/-- The latch arithmetic: monotone, 0 exactly for 0, `floor((n - 1) / 32) + 1` above, at most 2048, a step up at
`32 * q + 1` and nowhere else. -/
def Obligations.LatchArithmetic : Prop :=
  ∀ m n : Half,
    (m ≤ n → latchLen m ≤ latchLen n)
      ∧ (latchLen n = 0 ↔ n = 0)
      ∧ (n ≠ 0 → latchLen n = (n.toNat - 1) / 32 + 1)
      ∧ latchLen n ≤ 2048
      ∧ (n ≠ 65535 → (latchLen n < latchLen (n + 1) ↔ n.toNat % 32 = 0))

/-! ### StripTransmitter commands -/

/-- CONSTRUCT_NATIVE: the native backend selected (with the quiesce if Active), state Configured, then the allocation,
which does not undo the selection (D10, D19; the free levels of released pins: log 4). -/
def Obligations.ConstructNativeSelectsThenAllocates : Prop :=
  ∀ (s : State) (n : Half),
    ∃ t, exec (.constructNative n) s = .next t
      ∧ t = { s with
          fsm := .configured, backend := .native, length := t.length, pix := t.pix, status := t.status, result := 0
          wire := t.wire, lines := t.lines, freeCount := t.freeCount }
      ∧ QuiescedInto s t ∧ AllocatedInto s.cfg n t

/-- CONSTRUCT_PINS: the same with the manual backend on the given pins; no pin is touched but the released ones. -/
def Obligations.ConstructPinsSelectsThenAllocates : Prop :=
  ∀ (s : State) (n : Half) (d c : Byte) (slow : Bool),
    ∃ t, exec (.constructPins n d c slow) s = .next t
      ∧ t = { s with
          fsm := .configured, backend := .manual d c slow, length := t.length, pix := t.pix, status := t.status
          result := 0, wire := t.wire, lines := t.lines, freeCount := t.freeCount }
      ∧ QuiescedInto s t ∧ AllocatedInto s.cfg n t

/-- SELECT_NATIVE: always OK, state Configured, the old backend quiesced if Active (even the same one); LENGTH and PIX
untouched (D10). -/
def Obligations.SelectNativeQuiescesAndConfigures : Prop :=
  ∀ s : State,
    ∃ t, exec .selectNative s = .next t
      ∧ t = { s with
          fsm := .configured, backend := .native, status := .ok, result := 0
          wire := t.wire, lines := t.lines, freeCount := t.freeCount }
      ∧ QuiescedInto s t

/-- SELECT_PINS: the same with the manual backend; the new pins are not configured here (D10). -/
def Obligations.SelectPinsQuiescesAndConfigures : Prop :=
  ∀ (s : State) (d c : Byte) (slow : Bool),
    ∃ t, exec (.selectPins d c slow) s = .next t
      ∧ t = { s with
          fsm := .configured, backend := .manual d c slow, status := .ok, result := 0
          wire := t.wire, lines := t.lines, freeCount := t.freeCount }
      ∧ QuiescedInto s t

/-- QUIESCE, whole: the native peripheral off or the pins released, with its event; no bit is clocked; nothing else
changes but the levels of the released pins, which are free (log 4). -/
def Obligations.QuiesceDisablesWithoutClocking : Prop :=
  ∀ s : State,
    (s.backend = .native →
        s.quiesce = { s with wire := s.wire ++ [.nativeEnd], lines := { s.lines with nativeOn := false } })
      ∧ (∀ d c slow, s.backend = .manual d c slow →
        s.quiesce = { s with
          wire := s.wire ++ [.pinsRelease d c], freeCount := s.quiesce.freeCount
          lines := { s.lines with drive := false, dat := s.quiesce.lines.dat, clk := s.quiesce.lines.clk } })
      ∧ (s.backend = .none → s.quiesce = s)
      ∧ wireBits s.quiesce.wire = wireBits s.wire

/-- ACTIVATE on the native backend, present: begin, set-clock, then `latch_len(LENGTH)` zero bytes; NATIVE_ON, state
Active, status OK; no settle delay (D11, D14). -/
def Obligations.ActivateOnNativeEnablesAndLatches : Prop :=
  ∀ s : State, s.fsm ≠ .uninitialized → s.backend = .native → s.cfg.nativePresent = true →
    exec .activate s = .next { s with
      fsm := .active, status := .ok, result := 0, txc := Txc.idle, settleRunning := false, running := none
      lines := { s.lines with nativeOn := true }
      wire := s.wire ++ ([.nativeBegin, .nativeSetClock s.cfg.nativeClockHz]
        ++ List.replicate (latchLen s.length) (.nativeByte 0x00#8)) }

/-- ACTIVATE on the manual backend: the two pins configured as outputs at level 0 (D13), then `8 * latch_len(LENGTH)`
clocked zero bits; DRIVE, state Active, status OK; no settle delay (D11). -/
def Obligations.ActivateOnPinsEnablesAndLatches : Prop :=
  ∀ (s : State) (d c : Byte) (slow : Bool), s.fsm ≠ .uninitialized → s.backend = .manual d c slow →
    exec .activate s = .next { s with
      fsm := .active, status := .ok, result := 0, txc := Txc.idle, settleRunning := false, running := none
      lines := { s.lines with drive := true, dat := false, clk := false }
      wire := s.wire ++ ([.pinsOutput d c]
        ++ (List.replicate (8 * latchLen s.length) [Event.dat false, .clkHigh, .clkLow]).flatten) }

/-- ACTIVATE with no backend selected (D8) or with the native peripheral absent (D7): BACKEND_UNAVAILABLE, nothing else
changed, nothing sent. -/
def Obligations.ActivateUnavailableChangesNothing : Prop :=
  ∀ s : State,
    (s.fsm = .uninitialized ∨ (s.backend = .native ∧ s.cfg.nativePresent = false)) →
      exec .activate s = .next { s with status := .backendUnavailable, result := 0 }

/-- TRANSMIT on the native backend: every byte of the store in ascending address order, unchanged, then
`latch_len(LENGTH)` zero bytes, then the settle event; nothing else of the state changes but the response and the
cursor, which is idle. -/
def Obligations.TransmitOnNativeSendsTheFrame : Prop :=
  ∀ s : State, s.fsm = .active → s.backend = .native →
    ∃ bytes : List Byte, (∀ a, bytes[a]? = s.pixByte a)
      ∧ exec .transmit s = .next { s with
          status := .ok, result := 0, txc := Txc.idle, settleRunning := false, running := none
          wire := s.wire ++ (bytes.map Event.nativeByte ++ List.replicate (latchLen s.length) (.nativeByte 0x00#8)
            ++ [.settle s.cfg.settleDelayMs]) }

/-- TRANSMIT on the manual backend: the same bytes bit by bit, bit 7 first, each bit the data line then the clock high
and low; afterwards CLK is low and, if anything was sent, DAT is 0. -/
def Obligations.TransmitOnPinsSendsTheFrame : Prop :=
  ∀ (s : State) (d c : Byte) (slow : Bool), s.fsm = .active → s.backend = .manual d c slow →
    ∃ bytes : List Byte, (∀ a, bytes[a]? = s.pixByte a)
      ∧ exec .transmit s = .next { s with
          status := .ok, result := 0, txc := Txc.idle, settleRunning := false, running := none
          lines := if s.length = 0 then s.lines else { s.lines with dat := false, clk := false }
          wire := s.wire ++ ((bytes.flatMap fun b =>
              [b.getLsbD 7, b.getLsbD 6, b.getLsbD 5, b.getLsbD 4, b.getLsbD 3, b.getLsbD 2, b.getLsbD 1,
                b.getLsbD 0].flatMap fun v => [Event.dat v, .clkHigh, .clkLow])
            ++ (List.replicate (8 * latchLen s.length) [Event.dat false, .clkHigh, .clkLow]).flatten
            ++ [.settle s.cfg.settleDelayMs]) }

/-- EMIT_LATCH in state Active: `latch_len(LENGTH)` zero bytes through the backend and nothing else (D11, D20). -/
def Obligations.EmitLatchSendsOnlyTheLatchSequence : Prop :=
  ∀ s : State, s.fsm = .active →
    (s.backend = .native →
        exec .emitLatch s = .next { s with
          status := .ok, result := 0, txc := Txc.idle, settleRunning := false, running := none
          wire := s.wire ++ List.replicate (latchLen s.length) (.nativeByte 0x00#8) })
      ∧ ∀ d c slow, s.backend = .manual d c slow →
        exec .emitLatch s = .next { s with
          status := .ok, result := 0, txc := Txc.idle, settleRunning := false, running := none
          lines := if s.length = 0 then s.lines else { s.lines with dat := false, clk := false }
          wire := s.wire
            ++ (List.replicate (8 * latchLen s.length) [Event.dat false, .clkHigh, .clkLow]).flatten }

/-- TRANSMIT and EMIT_LATCH, and the wire units, are refused outside state Active, with nothing sent (D9; the wire
units: model's choice, log 5). -/
def Obligations.SendingIsRefusedOutsideActive : Prop :=
  ∀ (s : State) (intensity : BitVec 7), s.fsm ≠ .active →
    exec .transmit s = .refused .notActive
      ∧ exec .emitLatch s = .refused .notActive
      ∧ exec (.colourByte intensity) s = .refused .notActive
      ∧ exec .latchByte s = .refused .notActive

/-! ### The serial output -/

/-- `emit_byte` on the two backends: one transfer event, and nothing else, on the native one; on the manual one eight
bits from bit 7 to bit 0, each the data line, then the clock high, then low, after which DAT holds bit 0 and CLK is
low. -/
def Obligations.EmitByteOnBothBackends : Prop :=
  ∀ (s : State) (b : Byte),
    (s.backend = .native → s.emitByte b = { s with wire := s.wire ++ [.nativeByte b] })
      ∧ ∀ d c slow, s.backend = .manual d c slow →
        s.emitByte b = { s with
          wire := s.wire ++ [
            .dat (b.getLsbD 7), .clkHigh, .clkLow, .dat (b.getLsbD 6), .clkHigh, .clkLow,
            .dat (b.getLsbD 5), .clkHigh, .clkLow, .dat (b.getLsbD 4), .clkHigh, .clkLow,
            .dat (b.getLsbD 3), .clkHigh, .clkLow, .dat (b.getLsbD 2), .clkHigh, .clkLow,
            .dat (b.getLsbD 1), .clkHigh, .clkLow, .dat (b.getLsbD 0), .clkHigh, .clkLow]
          lines := { s.lines with dat := b.getLsbD 0, clk := false } }

/-- COLOUR_BYTE and LATCH_BYTE in state Active send their byte, `1iiiiiii` or 0x00, through the backend, and change
nothing else: one transfer event, or eight clocked bits with bit 7 first. That the rows are executed so is the model's
choice (log 5). -/
def Obligations.WireUnitsSendTheirByte : Prop :=
  ∀ (s : State) (x : BitVec 7), s.fsm = .active →
    (s.backend = .native →
        exec (.colourByte x) s = .next { s with wire := s.wire ++ [.nativeByte (1#1 ++ x)] }
          ∧ exec .latchByte s = .next { s with wire := s.wire ++ [.nativeByte 0x00#8] })
      ∧ ∀ d c slow, s.backend = .manual d c slow →
        exec (.colourByte x) s = .next { s with
            wire := s.wire ++ [true, x.getLsbD 6, x.getLsbD 5, x.getLsbD 4, x.getLsbD 3, x.getLsbD 2, x.getLsbD 1,
              x.getLsbD 0].flatMap fun v => [Event.dat v, .clkHigh, .clkLow]
            lines := { s.lines with dat := x.getLsbD 0, clk := false } }
          ∧ exec .latchByte s = .next { s with
            wire := s.wire ++ (List.replicate 8 [Event.dat false, .clkHigh, .clkLow]).flatten
            lines := { s.lines with dat := false, clk := false } }

/-- One TRANSMIT clocks `8 * (3 * LENGTH + latch_len(LENGTH))` bits, one EMIT_LATCH or successful ACTIVATE
`8 * latch_len(LENGTH)`, on either backend. -/
def Obligations.SizesOfWhatIsSent : Prop :=
  ∀ s t : State,
    (exec .transmit s = .next t →
        (wireBits t.wire).length = (wireBits s.wire).length + 8 * (3 * s.length.toNat + latchLen s.length))
      ∧ (exec .emitLatch s = .next t →
        (wireBits t.wire).length = (wireBits s.wire).length + 8 * latchLen s.length)
      ∧ (exec .activate s = .next t → t.status = .ok →
        (wireBits t.wire).length = (wireBits s.wire).length + 8 * latchLen s.length)

/-- The bytes of the events a command appends do not depend on the backend, given that ACTIVATE is available on both or
on neither (the wire units as instructions: model's choice, log 5). -/
def Obligations.BytesDoNotDependOnTheBackend : Prop :=
  ∀ (i : Instr) (s t₁ t₂ : State) (k₁ k₂ : Backend),
    exec i { s with backend := k₁ } = .next t₁ → exec i { s with backend := k₂ } = .next t₂ →
    t₁.status = t₂.status →
      ∃ e₁ e₂, t₁.wire = s.wire ++ e₁ ∧ t₂.wire = s.wire ++ e₂ ∧ wireBytes e₁ = wireBytes e₂

/-- Two TRANSMITs with nothing between them append the same sequence of events, and TRANSMIT changes neither PIX nor
LENGTH. -/
def Obligations.TransmitTwiceIsIdentical : Prop :=
  ∀ s t : State, exec .transmit s = .next t →
    t.pix = s.pix ∧ t.length = s.length
      ∧ ∃ u evs, exec .transmit t = .next u ∧ t.wire = s.wire ++ evs ∧ u.wire = t.wire ++ evs

/-- ACTIVATE issued twice initialises the backend twice and sends two latch sequences. -/
def Obligations.ActivateTwiceLatchesTwice : Prop :=
  ∀ s t : State, exec .activate s = .next t → t.status = .ok →
    ∃ u evs, exec .activate t = .next u ∧ u.fsm = .active ∧ u.status = .ok
      ∧ t.wire = s.wire ++ evs ∧ u.wire = t.wire ++ evs
      ∧ ((∃ rest, evs = .nativeBegin :: .nativeSetClock s.cfg.nativeClockHz :: rest)
          ∨ ∃ d c rest, evs = .pinsOutput d c :: rest)
      ∧ wireBytes evs = s.latchBytes

/-- A pixel written before a TRANSMIT is in its frame: the bytes at positions `3 * index` to `3 * index + 2`. -/
def Obligations.PixelWriteIsSeenByTransmit : Prop :=
  ∀ (s : State) (index : Half) (r g b : Byte),
    index < s.length → s.fsm = .active → s.backend ≠ .none →
      ∃ t u evs, exec (.setPixel index r g b) s = .next t ∧ exec .transmit t = .next u
        ∧ u.wire = s.wire ++ evs
        ∧ (wireBytes evs)[3 * index.toNat]? = some (g ||| 0x80#8)
        ∧ (wireBytes evs)[3 * index.toNat + 1]? = some (r ||| 0x80#8)
        ∧ (wireBytes evs)[3 * index.toNat + 2]? = some (b ||| 0x80#8)

/-- Only TRANSMIT performs a settle delay, exactly one, and it is the last event of the command (D11). -/
def Obligations.OnlyTransmitSettles : Prop :=
  ∀ (i : Instr) (s t : State), exec i s = .next t →
    (t.wire.countP Event.isSettle = s.wire.countP Event.isSettle + settleCount i)
      ∧ (i = .transmit → t.wire.getLast? = some (.settle s.cfg.settleDelayMs))

/-- The whole stream of a run: any list of instructions from any state whose wire holds whole bytes sends exactly the
bytes its instructions stand for, in order, on either backend: a latch sequence for each ACTIVATE that succeeds and each
EMIT_LATCH, a frame for each TRANSMIT, its own byte for each bare wire unit, nothing for any other. That a list may hold
bare wire units, and that they send so, is the model's choice (log 5). -/
def Obligations.RunSendsExactlyItsLatchesAndFrames : Prop :=
  ∀ (is : List Instr) (s t : State) (responses : List (BitVec 4 × Word)),
    (wireBits s.wire).length % 8 = 0 → runCommands is s = .next (t, responses) →
      wireBytes t.wire = wireBytes s.wire ++ sentByRun is s

/-! ### The machine as a whole -/

/-- The table of the transmitter's states: where every instruction leads, that the sending ones run only in Active, and
that no instruction leads back to Uninitialized (D8, D9, D10; the wire units: log 5). -/
def Obligations.TransmitterStateTable : Prop :=
  ∀ (i : Instr) (s t : State), exec i s = .next t →
    t.fsm = nextFsm i s ∧ (needsActive i = true → s.fsm = .active)
      ∧ (t.fsm = .uninitialized → s.fsm = .uninitialized)

/-- Which commands can complete with which status, and which can have a result other than 0 (D3, D22). -/
def Obligations.StatusesAndResultsByCommand : Prop :=
  ∀ (i : Instr) (s t : State), isCommand i = true → exec i s = .next t →
    (t.status = .allocationFailure →
        (∃ n, i = .constructNative n) ∨ (∃ n d c slow, i = .constructPins n d c slow) ∨ ∃ n, i = .resize n)
      ∧ (t.status = .backendUnavailable → i = .activate)
      ∧ (t.result ≠ 0 →
        (∃ index, i = .getPixelPacked index) ∨ (∃ r g b, i = .pack r g b) ∨ ∃ n, i = .latchLength n)

/-- No instruction and no step ever faults: every access to the store is inside it. -/
def Obligations.NothingFaults : Prop :=
  (∀ (i : Instr) (s : State) (f : Fault), exec i s ≠ .fault f) ∧ ∀ (s : State) (f : Fault), step s ≠ .fault f

/-- An instruction is refused exactly when it sends and no backend is active: of the thirteen commands, TRANSMIT and
EMIT_LATCH outside Active (D9; no backend in Active cannot occur: log 11). -/
def Obligations.OnlySendingWithoutAnActiveBackendIsRefused : Prop :=
  ∀ (i : Instr) (s : State),
    (∃ r, exec i s = .refused r) ↔ needsActive i = true ∧ (s.fsm ≠ .active ∨ s.backend = .none)

/-- WIRE is only ever appended to, the parameters never change, and a step takes at most the head of the port (the port
and the parameters as fields: model's choice, logs 1 and 6). -/
def Obligations.StepOnlyAppendsToWire : Prop :=
  ∀ s t : State, step s = .next t →
    (∃ evs, t.wire = s.wire ++ evs) ∧ t.cfg = s.cfg ∧ (t.port = s.port ∨ t.port = s.port.tail)

/-- Every byte of the store has bit 7 set after reset, and every command that starts so ends so, whatever else the state
holds. -/
def Obligations.EveryCommandKeepsTheMarkers : Prop :=
  (∀ (c : Config) (a : Nat) (b : Byte), (State.resetWith c).pixByte a = some b → b.getLsbD 7 = true)
    ∧ ∀ (i : Instr) (s t : State), (∀ a b, s.pixByte a = some b → b.getLsbD 7 = true) → exec i s = .next t →
      ∀ a b, t.pixByte a = some b → b.getLsbD 7 = true

/-- Every step keeps the machine's invariant: the store canonical, inside its size and marked; nothing in progress
between commands; no backend exactly in Uninitialized; the lines as the state says; whole bytes on the wire, each
0x00 or marked. A step takes its unit from the port, and may take a bare wire unit (model's choice, logs 5 and 6). -/
def Obligations.StepKeepsMachineInvariant : Prop :=
  ∀ s t : State, MachineInv s → step s = .next t → MachineInv t

/-- The reset state meets the machine's invariant, whatever the parameters. -/
def Obligations.ResetMeetsMachineInvariant : Prop :=
  ∀ c : Config, MachineInv (State.resetWith c)

/-- Every step keeps the cursor in its ranges, a command in progress included. The step of a command in progress, and
the two indices being 0 in phase Settle, are the model's choice (log 7). -/
def Obligations.StepKeepsCursorInRange : Prop :=
  ∀ s t : State, CursorInv s → step s = .next t → CursorInv t

/-- The cursor is in its ranges after reset and when one of the three commands has been started in its split form (the
split form and the start positions R18 leaves unsaid: model's choice, log 7). -/
def Obligations.CursorStartsInRange : Prop :=
  (∀ c : Config, CursorInv (State.resetWith c))
    ∧ ∀ (c : Running) (s t : State), CursorInv s → s.running = none → s.beginCommand c = .next t → CursorInv t

/-- Atomic and split execution agree: ACTIVATE, TRANSMIT and EMIT_LATCH executed one cursor position a step, bit by bit
on the manual backend, reach the very state that the one atomic step gives. The split form (a command in progress as a
field of the state, the start positions and the place of completion that R18 leaves unsaid) is the model's choice
(log 7). -/
def Obligations.SplitExecutionReachesTheAtomicState : Prop :=
  ∀ (c : Running) (s t : State), exec c.instr s = .next t →
    ∃ (u : State) (n : Nat), s.beginCommand c = .next u ∧ Host.Core.run Sys2Proof.core n u = .next t

/-- "functionally identical, only latency differs": clearing the slow bit before or after an instruction gives the same
outcome, and so does clearing it in the instruction's own operand. -/
def Obligations.SlowVariantChangesNothing : Prop :=
  (∀ (i : Instr) (s : State), mapNext eraseSlow (exec i s) = mapNext eraseSlow (exec i (eraseSlow s)))
    ∧ ∀ (s : State) (n : Half) (d c : Byte) (slow : Bool),
      mapNext eraseSlow (exec (.selectPins d c slow) s) = exec (.selectPins d c false) s
        ∧ mapNext eraseSlow (exec (.constructPins n d c slow) s) = exec (.constructPins n d c false) s

/-- The levels of DAT and CLK while the pins are not driven are never read: states that differ only in them have
outcomes that differ only in them, while the pins stay undriven. -/
def Obligations.UndrivenLevelsAreNeverRead : Prop :=
  ∀ (i : Instr) (s : State), mapNext maskFloating (exec i s) = mapNext maskFloating (exec i (maskFloating s))

/-- An allocation failure degrades the strip: every later pixel command is a no-op or reads 0, and in state Active a
TRANSMIT sends no byte and still settles (D22, D27). -/
def Obligations.AllocationFailureLeavesAnInertStrip : Prop :=
  ∀ (s t : State) (n : Half), allocOk s.cfg n = false → exec (.resize n) s = .next t →
    t.status = .allocationFailure ∧ t.length = 0 ∧ t.fsm = s.fsm ∧ t.backend = s.backend
      ∧ (∀ index r g b, exec (.setPixel index r g b) t = .next { t with status := .ok, result := 0 })
      ∧ (∀ index color, exec (.setPixelPacked index color) t = .next { t with status := .ok, result := 0 })
      ∧ (∀ index, exec (.getPixelPacked index) t = .next { t with status := .ok, result := 0 })
      ∧ (s.fsm = .active → s.backend ≠ .none →
        exec .transmit t = .next { t with
          status := .ok, result := 0, txc := Txc.idle, settleRunning := false, running := none
          wire := t.wire ++ [.settle t.cfg.settleDelayMs] })

/-- The degraded state is not sticky: a later RESIZE whose allocation succeeds gives a working strip. -/
def Obligations.DegradedStripRecovers : Prop :=
  ∀ (s t : State) (n m index : Half) (r g b : Byte),
    allocOk s.cfg n = false → exec (.resize n) s = .next t → allocOk s.cfg m = true → index < m →
      ∃ u v, exec (.resize m) t = .next u ∧ u.status = .ok ∧ u.length = m
        ∧ exec (.setPixel index r g b) u = .next v ∧ v.pixByte (pixelAddress index) = some (g ||| 0x80#8)

/-- The state after reset, as the table of the spec's own decision D5 gives it; DAT and CLK, which it leaves without a
value, are not spoken of. -/
def Obligations.ResetValues : Prop :=
  State.reset = State.resetWith Config.default
    ∧ ∀ c : Config,
      (State.resetWith c).fsm = .uninitialized ∧ (State.resetWith c).backend = .none
        ∧ (State.resetWith c).length = 0 ∧ (∀ a, (State.resetWith c).pixByte a = none)
        ∧ (State.resetWith c).txc = { phase := .idle, byteIx := 0, bitIx := 0 }
        ∧ (State.resetWith c).status = .ok ∧ (State.resetWith c).result = 0
        ∧ (State.resetWith c).lines.drive = false ∧ (State.resetWith c).lines.nativeOn = false
        ∧ (State.resetWith c).settleRunning = false ∧ (State.resetWith c).wire = []

/-- Before the first CONSTRUCT, in the reset state, every pixel command is legal and does nothing. -/
def Obligations.PixelCommandsAfterResetDoNothing : Prop :=
  ∀ (cfg : Config) (index : Half) (r g b : Byte) (color : Word),
    exec (.setPixel index r g b) (State.resetWith cfg) = .next (State.resetWith cfg)
      ∧ exec (.setPixelPacked index color) (State.resetWith cfg) = .next (State.resetWith cfg)
      ∧ exec (.getPixelPacked index) (State.resetWith cfg) = .next (State.resetWith cfg)

/-- The numeric status codes: 0, 1, 2; 3 to 15 never occur (D3). -/
def Obligations.StatusCodes : Prop :=
  Status.code .ok = 0 ∧ Status.code .allocationFailure = 1 ∧ Status.code .backendUnavailable = 2
    ∧ ∀ s : State, (s.response.1 = 0 ∨ s.response.1 = 1 ∨ s.response.1 = 2) ∧ s.response.2 = s.result

/-- Several framers share no state: a command to one leaves every other as it is. -/
def Obligations.InstancesShareNoState : Prop :=
  ∀ (k : Nat) (i : Instr) (bench bench' : List State), benchExec k i bench = some (.next bench') →
    bench'.length = bench.length ∧ (∀ j, j ≠ k → bench'[j]? = bench[j]?)
      ∧ ∃ s t, bench[k]? = some s ∧ bench'[k]? = some t ∧ exec i s = .next t
end

