-- ==== Sys2Proof/Laws/Memory.lean ====
section
/-! SUPPORT. The laws of the pixel store's cells: read after write, and the canonical form kept by every operation. -/

namespace Sys2Proof.Machine

theorem Memory.lookup_insertCell_self (a : Nat) (b : Byte) (m : Memory) (h : ∀ c ∈ m, c.1 ≠ a) :
    (Memory.insertCell a b m).lookup a = some b := by
  induction m with
  | nil => simp [Memory.insertCell]
  | cons c m ih =>
    obtain ⟨x, v⟩ := c
    have hx : x ≠ a := h (x, v) (by simp)
    have hm : ∀ c ∈ m, c.1 ≠ a := fun c hc => h c (by simp [hc])
    unfold Memory.insertCell
    split
    · simp [List.lookup]
    · have : (a == x) = false := by simpa using fun e => hx e.symm
      simp [List.lookup, this, ih hm]

theorem Memory.lookup_insertCell_ne (a a' : Nat) (b : Byte) (m : Memory) (h : a' ≠ a) :
    (Memory.insertCell a b m).lookup a' = m.lookup a' := by
  have ha : (a' == a) = false := by simpa using h
  induction m with
  | nil => simp [Memory.insertCell, List.lookup, ha]
  | cons c m ih =>
    obtain ⟨x, v⟩ := c
    unfold Memory.insertCell
    split
    · simp [List.lookup, ha]
    · cases hx : a' == x <;> simp [List.lookup, hx, ih]

theorem Memory.lookup_filter_ne (a a' : Nat) (m : Memory) (h : a' ≠ a) :
    List.lookup a' (m.filter fun c => c.1 != a) = List.lookup a' m := by
  induction m with
  | nil => rfl
  | cons c m ih =>
    obtain ⟨x, v⟩ := c
    by_cases hx : x = a
    · subst hx
      have : (a' == x) = false := by simpa using h
      simpa [List.lookup, this] using ih
    · cases hx' : a' == x <;> simp [List.lookup, hx, hx', ih]

theorem Memory.lookup_filter_self (a : Nat) (m : Memory) :
    List.lookup a (m.filter fun c => c.1 != a) = none := by
  induction m with
  | nil => rfl
  | cons c m ih =>
    obtain ⟨x, v⟩ := c
    by_cases hx : x = a
    · simpa [hx] using ih
    · have : (a == x) = false := by simpa using fun e => hx e.symm
      simpa [List.lookup, hx, this] using ih

/-- A read after a write to the same address gives the byte written. -/
@[simp] theorem Memory.read_write_same (m : Memory) (a : Nat) (b : Byte) : (m.write a b).read a = b := by
  unfold Memory.write Memory.read
  split
  · rename_i h
    simp [Memory.lookup_filter_self, h]
  · rw [Memory.lookup_insertCell_self]
    · rfl
    · intro c hc
      simpa using (List.mem_filter.1 hc).2

/-- A write leaves every other address alone. -/
theorem Memory.read_write_other (m : Memory) (a a' : Nat) (b : Byte) (h : a' ≠ a) :
    (m.write a b).read a' = m.read a' := by
  unfold Memory.write Memory.read
  split
  · rw [Memory.lookup_filter_ne _ _ _ h]
  · rw [Memory.lookup_insertCell_ne _ _ _ _ h, Memory.lookup_filter_ne _ _ _ h]

theorem Memory.mem_insertCell (a : Nat) (b : Byte) (m : Memory) (c : Host.Cell) :
    c ∈ Memory.insertCell a b m ↔ c = (a, b) ∨ c ∈ m := by
  induction m with
  | nil => simp [Memory.insertCell]
  | cons x m ih =>
    obtain ⟨x, v⟩ := x
    unfold Memory.insertCell
    split
    · simp
    · simp only [List.mem_cons, ih]
      tauto

/-- A cell of the written memory is the one written or an old one at another address. -/
theorem Memory.mem_write (m : Memory) (a : Nat) (b : Byte) (c : Host.Cell) (h : c ∈ m.write a b) :
    (c = (a, b) ∧ b ≠ offByte) ∨ (c ∈ m ∧ c.1 ≠ a) := by
  unfold Memory.write at h
  split at h
  · right
    simpa using List.mem_filter.1 h
  · rename_i hb
    rcases (Memory.mem_insertCell _ _ _ _).1 h with rfl | h
    · exact .inl ⟨rfl, hb⟩
    · right
      simpa using List.mem_filter.1 h

theorem Memory.pairwise_insertCell (a : Nat) (b : Byte) (m : Memory) (h : m.Pairwise fun x y => x.1 < y.1)
    (ha : ∀ c ∈ m, c.1 ≠ a) : (Memory.insertCell a b m).Pairwise fun x y => x.1 < y.1 := by
  induction m with
  | nil => simp [Memory.insertCell]
  | cons c m ih =>
    obtain ⟨x, v⟩ := c
    have hx : x ≠ a := ha (x, v) (by simp)
    rw [List.pairwise_cons] at h
    unfold Memory.insertCell
    split
    · rename_i hax
      rw [List.pairwise_cons]
      refine ⟨?_, List.pairwise_cons.2 h⟩
      intro c hc
      rcases List.mem_cons.1 hc with rfl | hc
      · exact hax
      · have := h.1 c hc
        simp only at this ⊢
        omega
    · rw [List.pairwise_cons]
      refine ⟨?_, ih h.2 fun c hc => ha c (by simp [hc])⟩
      intro c hc
      rcases (Memory.mem_insertCell _ _ _ _).1 hc with rfl | hc
      · simp only
        omega
      · exact h.1 c hc

/-- Every write keeps the canonical form. -/
theorem Memory.wf_write (m : Memory) (a : Nat) (b : Byte) (h : Memory.wf m) : Memory.wf (m.write a b) := by
  refine ⟨?_, fun c hc => ?_⟩
  · unfold Memory.write
    split
    · exact h.1.filter _
    · refine Memory.pairwise_insertCell _ _ _ (h.1.filter _) fun c hc => ?_
      simpa using (List.mem_filter.1 hc).2
  · rcases Memory.mem_write _ _ _ _ hc with ⟨rfl, hb⟩ | ⟨hc, -⟩
    · exact hb
    · exact h.2 c hc

/-- The empty store has the canonical form. -/
theorem Memory.wf_nil : Memory.wf [] := ⟨List.Pairwise.nil, fun _ hc => absurd hc List.not_mem_nil⟩

/-- The reset state's store has the canonical form, whatever the parameters. -/
theorem Memory.wf_resetWith (c : Config) : Memory.wf (State.resetWith c).pix := Memory.wf_nil

/-- MemWrite inside the store, once and for all: the three bytes, and every other byte as before. -/
theorem State.memWritePixel_spec (s t : State) (addr : Nat) (p : StoredPixel) (h : s.memWritePixel addr p = .ok t) :
    addr + 3 ≤ s.storeSize ∧ t = { s with pix := t.pix }
      ∧ t.pixByte addr = some p.green ∧ t.pixByte (addr + 1) = some p.red ∧ t.pixByte (addr + 2) = some p.blue
      ∧ (∀ a, a < addr ∨ addr + 3 ≤ a → t.pixByte a = s.pixByte a)
      ∧ (Memory.wf s.pix → Memory.wf t.pix)
      ∧ ∀ c ∈ t.pix, c ∈ s.pix ∨ c = (addr, p.green) ∨ c = (addr + 1, p.red) ∨ c = (addr + 2, p.blue) := by
  unfold State.memWritePixel at h
  split at h
  · rename_i hb
    cases h
    have hr : ∀ a, (((s.pix.write addr p.green).write (addr + 1) p.red).write (addr + 2) p.blue).read a
        = if a = addr then p.green else if a = addr + 1 then p.red else if a = addr + 2 then p.blue
          else s.pix.read a := by
      intro a
      by_cases h2 : a = addr + 2
      · subst h2
        simp
      · rw [Memory.read_write_other _ _ _ _ h2]
        by_cases h1 : a = addr + 1
        · subst h1
          simp
        · rw [Memory.read_write_other _ _ _ _ h1]
          by_cases h0 : a = addr
          · subst h0
            simp
          · simp [Memory.read_write_other _ _ _ _ h0, h0, h1, h2]
    have hs : ∀ a, ({ s with pix := ((s.pix.write addr p.green).write (addr + 1) p.red).write (addr + 2) p.blue } :
        State).pixByte a = if a < s.storeSize then some (if a = addr then p.green else if a = addr + 1 then p.red
          else if a = addr + 2 then p.blue else s.pix.read a) else none := by
      intro a
      simp only [State.pixByte, State.storeSize, hr]
      rfl
    refine ⟨hb, rfl, ?_, ?_, ?_, ?_, ?_, ?_⟩
    · rw [hs, if_pos (by omega)]
      simp
    · rw [hs, if_pos (by omega)]
      simp
    · rw [hs, if_pos (by omega)]
      simp
    · intro a ha
      rw [hs, if_neg (by omega : ¬a = addr), if_neg (by omega : ¬a = addr + 1), if_neg (by omega : ¬a = addr + 2)]
      rfl
    · intro hw
      exact Memory.wf_write _ _ _ (Memory.wf_write _ _ _ (Memory.wf_write _ _ _ hw))
    · intro c hc
      rcases Memory.mem_write _ _ _ _ hc with ⟨rfl, -⟩ | ⟨hc, -⟩
      · simp
      rcases Memory.mem_write _ _ _ _ hc with ⟨rfl, -⟩ | ⟨hc, -⟩
      · simp
      rcases Memory.mem_write _ _ _ _ hc with ⟨rfl, -⟩ | ⟨hc, -⟩
      · simp
      · exact .inl hc
  · cases h

/-- MemRead inside the store, once and for all. -/
theorem State.memReadPixel_spec (s : State) (addr : Nat) (p : StoredPixel) (h : s.memReadPixel addr = .ok p) :
    s.pixByte addr = some p.green ∧ s.pixByte (addr + 1) = some p.red ∧ s.pixByte (addr + 2) = some p.blue := by
  unfold State.memReadPixel at h
  split at h
  · cases h
    simp only [State.pixByte]
    refine ⟨if_pos (by omega), if_pos (by omega), if_pos (by omega)⟩
  · cases h

/-- A pixel in range is inside the store. -/
theorem pixelAddress_inside (s : State) (index : Half) (h : index < s.length) :
    pixelAddress index + 3 ≤ s.storeSize := by
  have : index.toNat < s.length.toNat := h
  simp only [pixelAddress, State.storeSize]
  omega

end Sys2Proof.Machine
end

