-- ==== Sys2Proof/Laws/State.lean ====
section
/-! SUPPORT. One lemma per field per update of the state, each true by rfl, so that no later proof unfolds an update. -/

namespace Sys2Proof.Machine

/-! ### emit -/

@[simp] theorem State.emit_fsm (evs : List Event) (s : State) : (s.emit evs).fsm = s.fsm := rfl
@[simp] theorem State.emit_backend (evs : List Event) (s : State) : (s.emit evs).backend = s.backend := rfl
@[simp] theorem State.emit_length (evs : List Event) (s : State) : (s.emit evs).length = s.length := rfl
@[simp] theorem State.emit_pix (evs : List Event) (s : State) : (s.emit evs).pix = s.pix := rfl
@[simp] theorem State.emit_txc (evs : List Event) (s : State) : (s.emit evs).txc = s.txc := rfl
@[simp] theorem State.emit_status (evs : List Event) (s : State) : (s.emit evs).status = s.status := rfl
@[simp] theorem State.emit_result (evs : List Event) (s : State) : (s.emit evs).result = s.result := rfl
@[simp] theorem State.emit_lines (evs : List Event) (s : State) : (s.emit evs).lines = evs.foldl Lines.after s.lines := rfl
@[simp] theorem State.emit_settleRunning (evs : List Event) (s : State) : (s.emit evs).settleRunning = s.settleRunning := rfl
@[simp] theorem State.emit_wire (evs : List Event) (s : State) : (s.emit evs).wire = s.wire ++ evs := rfl
@[simp] theorem State.emit_port (evs : List Event) (s : State) : (s.emit evs).port = s.port := rfl
@[simp] theorem State.emit_running (evs : List Event) (s : State) : (s.emit evs).running = s.running := rfl
@[simp] theorem State.emit_freeCount (evs : List Event) (s : State) : (s.emit evs).freeCount = s.freeCount := rfl
@[simp] theorem State.emit_cfg (evs : List Event) (s : State) : (s.emit evs).cfg = s.cfg := rfl

/-! ### complete -/

@[simp] theorem State.complete_fsm (st : Status) (r : Word) (s : State) : (s.complete st r).fsm = s.fsm := rfl
@[simp] theorem State.complete_backend (st : Status) (r : Word) (s : State) : (s.complete st r).backend = s.backend := rfl
@[simp] theorem State.complete_length (st : Status) (r : Word) (s : State) : (s.complete st r).length = s.length := rfl
@[simp] theorem State.complete_pix (st : Status) (r : Word) (s : State) : (s.complete st r).pix = s.pix := rfl
@[simp] theorem State.complete_txc (st : Status) (r : Word) (s : State) : (s.complete st r).txc = s.txc := rfl
@[simp] theorem State.complete_status (st : Status) (r : Word) (s : State) : (s.complete st r).status = st := rfl
@[simp] theorem State.complete_result (st : Status) (r : Word) (s : State) : (s.complete st r).result = r := rfl
@[simp] theorem State.complete_lines (st : Status) (r : Word) (s : State) : (s.complete st r).lines = s.lines := rfl
@[simp] theorem State.complete_settleRunning (st : Status) (r : Word) (s : State) : (s.complete st r).settleRunning = s.settleRunning := rfl
@[simp] theorem State.complete_wire (st : Status) (r : Word) (s : State) : (s.complete st r).wire = s.wire := rfl
@[simp] theorem State.complete_port (st : Status) (r : Word) (s : State) : (s.complete st r).port = s.port := rfl
@[simp] theorem State.complete_running (st : Status) (r : Word) (s : State) : (s.complete st r).running = s.running := rfl
@[simp] theorem State.complete_freeCount (st : Status) (r : Word) (s : State) : (s.complete st r).freeCount = s.freeCount := rfl
@[simp] theorem State.complete_cfg (st : Status) (r : Word) (s : State) : (s.complete st r).cfg = s.cfg := rfl

/-! ### raise -/

@[simp] theorem State.raise_fsm (st : Status) (s : State) : (s.raise st).fsm = s.fsm := rfl
@[simp] theorem State.raise_backend (st : Status) (s : State) : (s.raise st).backend = s.backend := rfl
@[simp] theorem State.raise_length (st : Status) (s : State) : (s.raise st).length = s.length := rfl
@[simp] theorem State.raise_pix (st : Status) (s : State) : (s.raise st).pix = s.pix := rfl
@[simp] theorem State.raise_txc (st : Status) (s : State) : (s.raise st).txc = s.txc := rfl
@[simp] theorem State.raise_status (st : Status) (s : State) : (s.raise st).status = st := rfl
@[simp] theorem State.raise_result (st : Status) (s : State) : (s.raise st).result = 0 := rfl
@[simp] theorem State.raise_lines (st : Status) (s : State) : (s.raise st).lines = s.lines := rfl
@[simp] theorem State.raise_settleRunning (st : Status) (s : State) : (s.raise st).settleRunning = s.settleRunning := rfl
@[simp] theorem State.raise_wire (st : Status) (s : State) : (s.raise st).wire = s.wire := rfl
@[simp] theorem State.raise_port (st : Status) (s : State) : (s.raise st).port = s.port := rfl
@[simp] theorem State.raise_running (st : Status) (s : State) : (s.raise st).running = s.running := rfl
@[simp] theorem State.raise_freeCount (st : Status) (s : State) : (s.raise st).freeCount = s.freeCount := rfl
@[simp] theorem State.raise_cfg (st : Status) (s : State) : (s.raise st).cfg = s.cfg := rfl

/-! ### endTransfer -/

@[simp] theorem State.endTransfer_fsm (s : State) : (s.endTransfer).fsm = s.fsm := rfl
@[simp] theorem State.endTransfer_backend (s : State) : (s.endTransfer).backend = s.backend := rfl
@[simp] theorem State.endTransfer_length (s : State) : (s.endTransfer).length = s.length := rfl
@[simp] theorem State.endTransfer_pix (s : State) : (s.endTransfer).pix = s.pix := rfl
@[simp] theorem State.endTransfer_txc (s : State) : (s.endTransfer).txc = Txc.idle := rfl
@[simp] theorem State.endTransfer_status (s : State) : (s.endTransfer).status = s.status := rfl
@[simp] theorem State.endTransfer_result (s : State) : (s.endTransfer).result = s.result := rfl
@[simp] theorem State.endTransfer_lines (s : State) : (s.endTransfer).lines = s.lines := rfl
@[simp] theorem State.endTransfer_settleRunning (s : State) : (s.endTransfer).settleRunning = false := rfl
@[simp] theorem State.endTransfer_wire (s : State) : (s.endTransfer).wire = s.wire := rfl
@[simp] theorem State.endTransfer_port (s : State) : (s.endTransfer).port = s.port := rfl
@[simp] theorem State.endTransfer_running (s : State) : (s.endTransfer).running = none := rfl
@[simp] theorem State.endTransfer_freeCount (s : State) : (s.endTransfer).freeCount = s.freeCount := rfl
@[simp] theorem State.endTransfer_cfg (s : State) : (s.endTransfer).cfg = s.cfg := rfl

/-! ### finish -/

@[simp] theorem State.finish_fsm (s : State) : (s.finish).fsm = s.fsm := rfl
@[simp] theorem State.finish_backend (s : State) : (s.finish).backend = s.backend := rfl
@[simp] theorem State.finish_length (s : State) : (s.finish).length = s.length := rfl
@[simp] theorem State.finish_pix (s : State) : (s.finish).pix = s.pix := rfl
@[simp] theorem State.finish_txc (s : State) : (s.finish).txc = Txc.idle := rfl
@[simp] theorem State.finish_status (s : State) : (s.finish).status = .ok := rfl
@[simp] theorem State.finish_result (s : State) : (s.finish).result = 0 := rfl
@[simp] theorem State.finish_lines (s : State) : (s.finish).lines = s.lines := rfl
@[simp] theorem State.finish_settleRunning (s : State) : (s.finish).settleRunning = false := rfl
@[simp] theorem State.finish_wire (s : State) : (s.finish).wire = s.wire := rfl
@[simp] theorem State.finish_port (s : State) : (s.finish).port = s.port := rfl
@[simp] theorem State.finish_running (s : State) : (s.finish).running = none := rfl
@[simp] theorem State.finish_freeCount (s : State) : (s.finish).freeCount = s.freeCount := rfl
@[simp] theorem State.finish_cfg (s : State) : (s.finish).cfg = s.cfg := rfl

/-! ### settleDelay -/

@[simp] theorem State.settleDelay_fsm (s : State) : (s.settleDelay).fsm = s.fsm := rfl
@[simp] theorem State.settleDelay_backend (s : State) : (s.settleDelay).backend = s.backend := rfl
@[simp] theorem State.settleDelay_length (s : State) : (s.settleDelay).length = s.length := rfl
@[simp] theorem State.settleDelay_pix (s : State) : (s.settleDelay).pix = s.pix := rfl
@[simp] theorem State.settleDelay_txc (s : State) : (s.settleDelay).txc = s.txc := rfl
@[simp] theorem State.settleDelay_status (s : State) : (s.settleDelay).status = s.status := rfl
@[simp] theorem State.settleDelay_result (s : State) : (s.settleDelay).result = s.result := rfl
@[simp] theorem State.settleDelay_lines (s : State) : (s.settleDelay).lines = s.lines := rfl
@[simp] theorem State.settleDelay_settleRunning (s : State) : (s.settleDelay).settleRunning = s.settleRunning := rfl
@[simp] theorem State.settleDelay_wire (s : State) : (s.settleDelay).wire = s.wire ++ [.settle s.cfg.settleDelayMs] := rfl
@[simp] theorem State.settleDelay_port (s : State) : (s.settleDelay).port = s.port := rfl
@[simp] theorem State.settleDelay_running (s : State) : (s.settleDelay).running = s.running := rfl
@[simp] theorem State.settleDelay_freeCount (s : State) : (s.settleDelay).freeCount = s.freeCount := rfl
@[simp] theorem State.settleDelay_cfg (s : State) : (s.settleDelay).cfg = s.cfg := rfl

/-! ### floatLines -/

@[simp] theorem State.floatLines_fsm (s : State) : (s.floatLines).fsm = s.fsm := rfl
@[simp] theorem State.floatLines_backend (s : State) : (s.floatLines).backend = s.backend := rfl
@[simp] theorem State.floatLines_length (s : State) : (s.floatLines).length = s.length := rfl
@[simp] theorem State.floatLines_pix (s : State) : (s.floatLines).pix = s.pix := rfl
@[simp] theorem State.floatLines_txc (s : State) : (s.floatLines).txc = s.txc := rfl
@[simp] theorem State.floatLines_status (s : State) : (s.floatLines).status = s.status := rfl
@[simp] theorem State.floatLines_result (s : State) : (s.floatLines).result = s.result := rfl
@[simp] theorem State.floatLines_lines (s : State) : (s.floatLines).lines = { s.lines with
      dat := Config.floatingLevel s.freeCount
      clk := Config.floatingLevel (s.freeCount + 1) } := rfl
@[simp] theorem State.floatLines_settleRunning (s : State) : (s.floatLines).settleRunning = s.settleRunning := rfl
@[simp] theorem State.floatLines_wire (s : State) : (s.floatLines).wire = s.wire := rfl
@[simp] theorem State.floatLines_port (s : State) : (s.floatLines).port = s.port := rfl
@[simp] theorem State.floatLines_running (s : State) : (s.floatLines).running = s.running := rfl
@[simp] theorem State.floatLines_freeCount (s : State) : (s.floatLines).freeCount = s.freeCount + 2 := rfl
@[simp] theorem State.floatLines_cfg (s : State) : (s.floatLines).cfg = s.cfg := rfl

/-! ### enable -/

@[simp] theorem State.enable_fsm (evs : List Event) (s : State) : (s.enable evs).fsm = .active := rfl
@[simp] theorem State.enable_backend (evs : List Event) (s : State) : (s.enable evs).backend = s.backend := rfl
@[simp] theorem State.enable_length (evs : List Event) (s : State) : (s.enable evs).length = s.length := rfl
@[simp] theorem State.enable_pix (evs : List Event) (s : State) : (s.enable evs).pix = s.pix := rfl
@[simp] theorem State.enable_txc (evs : List Event) (s : State) : (s.enable evs).txc = s.txc := rfl
@[simp] theorem State.enable_status (evs : List Event) (s : State) : (s.enable evs).status = s.status := rfl
@[simp] theorem State.enable_result (evs : List Event) (s : State) : (s.enable evs).result = s.result := rfl
@[simp] theorem State.enable_lines (evs : List Event) (s : State) : (s.enable evs).lines = evs.foldl Lines.after s.lines := rfl
@[simp] theorem State.enable_settleRunning (evs : List Event) (s : State) : (s.enable evs).settleRunning = s.settleRunning := rfl
@[simp] theorem State.enable_wire (evs : List Event) (s : State) : (s.enable evs).wire = s.wire ++ evs := rfl
@[simp] theorem State.enable_port (evs : List Event) (s : State) : (s.enable evs).port = s.port := rfl
@[simp] theorem State.enable_running (evs : List Event) (s : State) : (s.enable evs).running = s.running := rfl
@[simp] theorem State.enable_freeCount (evs : List Event) (s : State) : (s.enable evs).freeCount = s.freeCount := rfl
@[simp] theorem State.enable_cfg (evs : List Event) (s : State) : (s.enable evs).cfg = s.cfg := rfl

/-! ### emitByte -/

@[simp] theorem State.emitByte_fsm (b : Byte) (s : State) : (s.emitByte b).fsm = s.fsm := rfl
@[simp] theorem State.emitByte_backend (b : Byte) (s : State) : (s.emitByte b).backend = s.backend := rfl
@[simp] theorem State.emitByte_length (b : Byte) (s : State) : (s.emitByte b).length = s.length := rfl
@[simp] theorem State.emitByte_pix (b : Byte) (s : State) : (s.emitByte b).pix = s.pix := rfl
@[simp] theorem State.emitByte_txc (b : Byte) (s : State) : (s.emitByte b).txc = s.txc := rfl
@[simp] theorem State.emitByte_status (b : Byte) (s : State) : (s.emitByte b).status = s.status := rfl
@[simp] theorem State.emitByte_result (b : Byte) (s : State) : (s.emitByte b).result = s.result := rfl
@[simp] theorem State.emitByte_lines (b : Byte) (s : State) : (s.emitByte b).lines = (byteEvents s.backend b).foldl Lines.after s.lines := rfl
@[simp] theorem State.emitByte_settleRunning (b : Byte) (s : State) : (s.emitByte b).settleRunning = s.settleRunning := rfl
@[simp] theorem State.emitByte_wire (b : Byte) (s : State) : (s.emitByte b).wire = s.wire ++ byteEvents s.backend b := rfl
@[simp] theorem State.emitByte_port (b : Byte) (s : State) : (s.emitByte b).port = s.port := rfl
@[simp] theorem State.emitByte_running (b : Byte) (s : State) : (s.emitByte b).running = s.running := rfl
@[simp] theorem State.emitByte_freeCount (b : Byte) (s : State) : (s.emitByte b).freeCount = s.freeCount := rfl
@[simp] theorem State.emitByte_cfg (b : Byte) (s : State) : (s.emitByte b).cfg = s.cfg := rfl

/-! ### emitBytes -/

@[simp] theorem State.emitBytes_fsm (bs : List Byte) (s : State) : (s.emitBytes bs).fsm = s.fsm := rfl
@[simp] theorem State.emitBytes_backend (bs : List Byte) (s : State) : (s.emitBytes bs).backend = s.backend := rfl
@[simp] theorem State.emitBytes_length (bs : List Byte) (s : State) : (s.emitBytes bs).length = s.length := rfl
@[simp] theorem State.emitBytes_pix (bs : List Byte) (s : State) : (s.emitBytes bs).pix = s.pix := rfl
@[simp] theorem State.emitBytes_txc (bs : List Byte) (s : State) : (s.emitBytes bs).txc = s.txc := rfl
@[simp] theorem State.emitBytes_status (bs : List Byte) (s : State) : (s.emitBytes bs).status = s.status := rfl
@[simp] theorem State.emitBytes_result (bs : List Byte) (s : State) : (s.emitBytes bs).result = s.result := rfl
@[simp] theorem State.emitBytes_lines (bs : List Byte) (s : State) : (s.emitBytes bs).lines = (bs.flatMap (byteEvents s.backend)).foldl Lines.after s.lines := rfl
@[simp] theorem State.emitBytes_settleRunning (bs : List Byte) (s : State) : (s.emitBytes bs).settleRunning = s.settleRunning := rfl
@[simp] theorem State.emitBytes_wire (bs : List Byte) (s : State) : (s.emitBytes bs).wire = s.wire ++ bs.flatMap (byteEvents s.backend) := rfl
@[simp] theorem State.emitBytes_port (bs : List Byte) (s : State) : (s.emitBytes bs).port = s.port := rfl
@[simp] theorem State.emitBytes_running (bs : List Byte) (s : State) : (s.emitBytes bs).running = s.running := rfl
@[simp] theorem State.emitBytes_freeCount (bs : List Byte) (s : State) : (s.emitBytes bs).freeCount = s.freeCount := rfl
@[simp] theorem State.emitBytes_cfg (bs : List Byte) (s : State) : (s.emitBytes bs).cfg = s.cfg := rfl

/-! ### emitLatchSequence -/

@[simp] theorem State.emitLatchSequence_fsm (s : State) : (s.emitLatchSequence).fsm = s.fsm := rfl
@[simp] theorem State.emitLatchSequence_backend (s : State) : (s.emitLatchSequence).backend = s.backend := rfl
@[simp] theorem State.emitLatchSequence_length (s : State) : (s.emitLatchSequence).length = s.length := rfl
@[simp] theorem State.emitLatchSequence_pix (s : State) : (s.emitLatchSequence).pix = s.pix := rfl
@[simp] theorem State.emitLatchSequence_txc (s : State) : (s.emitLatchSequence).txc = s.txc := rfl
@[simp] theorem State.emitLatchSequence_status (s : State) : (s.emitLatchSequence).status = s.status := rfl
@[simp] theorem State.emitLatchSequence_result (s : State) : (s.emitLatchSequence).result = s.result := rfl
@[simp] theorem State.emitLatchSequence_lines (s : State) : (s.emitLatchSequence).lines = (s.latchBytes.flatMap (byteEvents s.backend)).foldl Lines.after s.lines := rfl
@[simp] theorem State.emitLatchSequence_settleRunning (s : State) : (s.emitLatchSequence).settleRunning = s.settleRunning := rfl
@[simp] theorem State.emitLatchSequence_wire (s : State) : (s.emitLatchSequence).wire = s.wire ++ s.latchBytes.flatMap (byteEvents s.backend) := rfl
@[simp] theorem State.emitLatchSequence_port (s : State) : (s.emitLatchSequence).port = s.port := rfl
@[simp] theorem State.emitLatchSequence_running (s : State) : (s.emitLatchSequence).running = s.running := rfl
@[simp] theorem State.emitLatchSequence_freeCount (s : State) : (s.emitLatchSequence).freeCount = s.freeCount := rfl
@[simp] theorem State.emitLatchSequence_cfg (s : State) : (s.emitLatchSequence).cfg = s.cfg := rfl

/-! ### present -/

@[simp] theorem State.present_fsm (p : Presented) (s : State) : (s.present p).fsm = s.fsm := rfl
@[simp] theorem State.present_backend (p : Presented) (s : State) : (s.present p).backend = s.backend := rfl
@[simp] theorem State.present_length (p : Presented) (s : State) : (s.present p).length = s.length := rfl
@[simp] theorem State.present_pix (p : Presented) (s : State) : (s.present p).pix = s.pix := rfl
@[simp] theorem State.present_txc (p : Presented) (s : State) : (s.present p).txc = Txc.idle := rfl
@[simp] theorem State.present_status (p : Presented) (s : State) : (s.present p).status = s.status := rfl
@[simp] theorem State.present_result (p : Presented) (s : State) : (s.present p).result = s.result := rfl
@[simp] theorem State.present_lines (p : Presented) (s : State) : (s.present p).lines = s.lines := rfl
@[simp] theorem State.present_settleRunning (p : Presented) (s : State) : (s.present p).settleRunning = false := rfl
@[simp] theorem State.present_wire (p : Presented) (s : State) : (s.present p).wire = s.wire := rfl
@[simp] theorem State.present_port (p : Presented) (s : State) : (s.present p).port = p :: s.port := rfl
@[simp] theorem State.present_running (p : Presented) (s : State) : (s.present p).running = none := rfl
@[simp] theorem State.present_freeCount (p : Presented) (s : State) : (s.present p).freeCount = s.freeCount := rfl
@[simp] theorem State.present_cfg (p : Presented) (s : State) : (s.present p).cfg = s.cfg := rfl

/-! ### What is computed from the state -/

@[simp] theorem State.emit_nil (s : State) : s.emit [] = s := by
  simp [State.emit]

theorem State.emit_emit (a b : List Event) (s : State) : (s.emit a).emit b = s.emit (a ++ b) := by
  simp [State.emit, List.append_assoc]

@[simp] theorem State.emitBytes_storeSize (bs : List Byte) (s : State) :
    (s.emitBytes bs).storeSize = s.storeSize := rfl
@[simp] theorem State.emitBytes_colourBytes (bs : List Byte) (s : State) :
    (s.emitBytes bs).colourBytes = s.colourBytes := rfl
@[simp] theorem State.emitBytes_latchBytes (bs : List Byte) (s : State) :
    (s.emitBytes bs).latchBytes = s.latchBytes := rfl
@[simp] theorem State.enable_latchBytes (evs : List Event) (s : State) :
    (s.enable evs).latchBytes = s.latchBytes := rfl
@[simp] theorem State.complete_pixByte (st : Status) (r : Word) (s : State) (a : Nat) :
    (s.complete st r).pixByte a = s.pixByte a := rfl

end Sys2Proof.Machine
end

