-- ==== Sys2Proof/Laws/Ops.lean ====
section
/-! SUPPORT. One lemma per shared operation that says what it can do, and the byte-by-byte reading of the operations
that send a list of bytes. -/

namespace Sys2Proof.Machine

/-! ### Sending bytes -/

@[simp] theorem State.emitBytes_nil (s : State) : s.emitBytes [] = s := State.emit_nil s

/-- Sending a list of bytes is sending its first byte, then the others (R85's loop). -/
theorem State.emitBytes_cons (b : Byte) (bs : List Byte) (s : State) :
    s.emitBytes (b :: bs) = (s.emitByte b).emitBytes bs := by
  simp [State.emitBytes, State.emitByte, State.emit, List.append_assoc, List.foldl_append]

/-- Sending two lists one after the other. -/
theorem State.emitBytes_emitBytes (as bs : List Byte) (s : State) :
    (s.emitBytes as).emitBytes bs = s.emitBytes (as ++ bs) := by
  simp [State.emitBytes, State.emit, List.append_assoc, List.foldl_append]

/-- The lines after one clocked bit: DAT holds it, CLK is low (R102). -/
@[simp] theorem Lines.foldl_bitEvents (l : Lines) (v : Bool) :
    (bitEvents v).foldl Lines.after l = { l with dat := v, clk := false } := rfl

/-- The native backend's bytes leave the lines alone. -/
theorem Lines.foldl_native (l : Lines) (bs : List Byte) :
    (bs.flatMap (byteEvents .native)).foldl Lines.after l = l := by
  induction bs generalizing l with
  | nil => rfl
  | cons b bs ih => simpa [List.flatMap_cons, byteEvents, Lines.after] using ih l

/-- The lines after one byte on the manual backend: DAT holds bit 0, CLK is low. -/
theorem Lines.foldl_manual_byte (l : Lines) (d c : Byte) (slow : Bool) (b : Byte) :
    (byteEvents (.manual d c slow) b).foldl Lines.after l = { l with dat := b.getLsbD 0, clk := false } := rfl

/-- The lines after some zero bytes on the manual backend: both low. -/
theorem Lines.foldl_manual_zeros (l : Lines) (d c : Byte) (slow : Bool) (n : Nat) :
    ((List.replicate n 0x00#8).flatMap (byteEvents (.manual d c slow))).foldl Lines.after l
      = if n = 0 then l else { l with dat := false, clk := false } := by
  induction n generalizing l with
  | zero => rfl
  | succ n ih =>
    rw [List.replicate_succ, List.flatMap_cons, List.foldl_append, Lines.foldl_manual_byte, ih]
    split <;> simp

/-- Bytes on the manual backend move DAT and CLK only, and leave CLK low or as it was. -/
theorem Lines.foldl_manual_bytes (l : Lines) (d c : Byte) (slow : Bool) (bs : List Byte) :
    ((bs.flatMap (byteEvents (.manual d c slow))).foldl Lines.after l).drive = l.drive
      ∧ ((bs.flatMap (byteEvents (.manual d c slow))).foldl Lines.after l).nativeOn = l.nativeOn
      ∧ (l.clk = false → ((bs.flatMap (byteEvents (.manual d c slow))).foldl Lines.after l).clk = false) := by
  induction bs generalizing l with
  | nil => exact ⟨rfl, rfl, id⟩
  | cons b bs ih =>
    rw [List.flatMap_cons, List.foldl_append, Lines.foldl_manual_byte]
    obtain ⟨h₁, h₂, h₃⟩ := ih { l with dat := b.getLsbD 0, clk := false }
    exact ⟨h₁, h₂, fun _ => h₃ rfl⟩

/-! ### The store and the latch -/

@[simp] theorem length_colourBytes (s : State) : s.colourBytes.length = s.storeSize := by
  simp [State.colourBytes]

/-- The colour bytes of a frame are the bytes of the store at their addresses (R54). -/
theorem getElem?_colourBytes (s : State) (a : Nat) : s.colourBytes[a]? = s.pixByte a := by
  unfold State.colourBytes State.pixByte
  by_cases h : a < s.storeSize
  · simp [h]
  · simp [h]

@[simp] theorem length_latchBytes (s : State) : s.latchBytes.length = latchLen s.length := by
  simp [State.latchBytes]

/-- `latch_len` in the other usual form, on naturals (D29). -/
theorem latchLen_eq (n : Half) : latchLen n = (n.toNat + 31) / 32 := by
  unfold latchLen
  split <;> omega

theorem latchLen_le (n : Half) : latchLen n ≤ 2048 := by
  rw [latchLen_eq]
  have := n.isLt
  omega

/-- No latch byte exactly for the empty strip. -/
theorem latchLen_pos (n : Half) (h : n ≠ 0) : 0 < latchLen n := by
  rw [latchLen_eq]
  have : n.toNat ≠ 0 := fun e => h (BitVec.eq_of_toNat_eq (by simpa using e))
  omega

theorem storeSize_le (s : State) : s.storeSize ≤ 196605 := by
  unfold State.storeSize
  have := s.length.isLt
  omega

/-! ### Allocation, selection, activation, sending -/

/-- A length of 0 always succeeds (D24). -/
theorem allocOk_zero (c : Config) : allocOk c 0 = true := rfl

/-- What NEW and RESIZE can do. -/
theorem State.newStore_cases (n : Half) (s : State) :
    (allocOk s.cfg n = true ∧ s.newStore n = { s with length := n, pix := [], status := .ok, result := 0 })
      ∨ (allocOk s.cfg n = false
        ∧ s.newStore n = { s with length := 0, pix := [], status := .allocationFailure, result := 0 }) := by
  unfold State.newStore
  split
  · rename_i h
    exact .inl ⟨h, rfl⟩
  · rename_i h
    exact .inr ⟨by simpa using h, rfl⟩

/-- What SELECT can do: nothing but the choice unless Active on a backend. -/
theorem State.select_cases (k : Backend) (s : State) :
    ((s.fsm ≠ .active ∨ s.backend = .none) ∧ s.select k = { s with backend := k, fsm := .configured })
      ∨ (s.fsm = .active ∧ s.backend = .native ∧ s.select k = { s.emit [.nativeEnd] with backend := k, fsm := .configured })
      ∨ (s.fsm = .active ∧ ∃ d c slow, s.backend = .manual d c slow
        ∧ s.select k = { (s.emit [.pinsRelease d c]).floatLines with backend := k, fsm := .configured }) := by
  unfold State.select State.quiesce
  by_cases h : s.fsm = .active
  · cases hb : s.backend with
    | none => simp [h]
    | native => simp [h]
    | manual d c slow => simp [h]
  · simp [h]

/-- When ACTIVATE is available and which events enable the backend. -/
theorem State.enableEvents_cases (s : State) (evs : List Event) (h : s.enableEvents = some evs) :
    s.fsm ≠ .uninitialized
      ∧ ((s.backend = .native ∧ s.cfg.nativePresent = true
            ∧ evs = [.nativeBegin, .nativeSetClock s.cfg.nativeClockHz])
        ∨ ∃ d c slow, s.backend = .manual d c slow ∧ evs = [.pinsOutput d c]) := by
  unfold State.enableEvents at h
  split at h
  · cases h
  · rename_i hf
    refine ⟨hf, ?_⟩
    cases hb : s.backend with
    | none => simp [hb] at h
    | native =>
      simp only [hb, Option.ite_none_right_eq_some, Option.some.injEq] at h
      exact .inl ⟨rfl, h.1, h.2.symm⟩
    | manual d c slow =>
      simp only [hb, Option.some.injEq] at h
      exact .inr ⟨d, c, slow, rfl, h.symm⟩

/-- What sending through the active backend can answer. -/
theorem State.throughActiveBackend_cases (send : State → State) (s : State) :
    (s.fsm = .active ∧ s.backend ≠ .none ∧ s.throughActiveBackend send = .next (send s))
      ∨ (s.fsm = .active ∧ s.backend = .none ∧ s.throughActiveBackend send = .refused .noBackend)
      ∨ (s.fsm ≠ .active ∧ s.throughActiveBackend send = .refused .notActive) := by
  unfold State.throughActiveBackend
  by_cases h : s.fsm = .active
  · cases hb : s.backend <;> simp [h]
  · simp [h]

/-- Writing a pixel never faults: it answers a next state, and what that is. -/
theorem storePixel_cases (index : Half) (p : StoredPixel) (s : State) :
    (index < s.length ∧ ∃ t, s.memWritePixel (pixelAddress index) p = .ok t
        ∧ storePixel index p s = .next (t.complete .ok 0))
      ∨ (¬index < s.length ∧ storePixel index p s = .next (s.complete .ok 0)) := by
  unfold storePixel
  by_cases h : index < s.length
  · refine .inl ⟨h, _, if_pos (pixelAddress_inside s index h), ?_⟩
    simp [h, State.memWritePixel, pixelAddress_inside s index h]
  · exact .inr ⟨h, by simp [h]⟩

end Sys2Proof.Machine
end

