-- ==== Sys2Proof/Laws/PerInstr.lean ====
section
/-! SUPPORT. The per-instruction family `EncodedUnit`: the encoder gives a well-formed unit, that is, an assigned opcode
with the ignored bits 0, or a wire byte that the block sends (spec/30_encoding.md R51, R52, R60, R61). -/

namespace Sys2Proof.Laws.EncodedUnit

/-- A well-formed instruction is encoded as a well-formed unit. -/
def Statement (i : Instr) : Prop := i.wellFormed = true → (encode i).wellFormed = true

/-- A command word with an assigned opcode and no ignored bit set is well formed. -/
theorem wellFormed_command (w mask : CommandWord) (op : BitVec 4) (hop : w.extractLsb' 60 4 = op)
    (hmask : usedBits op.toNat = some mask) (hbits : w &&& ~~~mask = 0#64) :
    (Presented.command w).wellFormed = true := by
  simp [Presented.wellFormed, hop, hmask, hbits]

theorem constructNative (n : Half) : Statement (.constructNative n) := fun _ => by
  refine wellFormed_command _ 0xFFFFF00000000000#64 1#4 ?_ rfl ?_
  · apply BitVec.eq_of_getLsbD_eq
    intro k hk
    simp only [BitVec.getLsbD_extractLsb', BitVec.getLsbD_append]
    interval_cases k <;> simp
  · apply BitVec.eq_of_getLsbD_eq
    intro k hk
    rw [BitVec.getLsbD_and]
    simp only [BitVec.getLsbD_append]
    interval_cases k <;> simp

theorem constructPins (n : Half) (d c : Byte) (slow : Bool) : Statement (.constructPins n d c slow) := fun _ => by
  refine wellFormed_command _ 0xFFFFFFFFF8000000#64 2#4 ?_ rfl ?_
  · apply BitVec.eq_of_getLsbD_eq
    intro k hk
    simp only [BitVec.getLsbD_extractLsb', BitVec.getLsbD_append]
    interval_cases k <;> simp
  · apply BitVec.eq_of_getLsbD_eq
    intro k hk
    rw [BitVec.getLsbD_and]
    simp only [BitVec.getLsbD_append]
    interval_cases k <;> simp

theorem selectNative : Statement .selectNative := fun _ => by decide

theorem selectPins (d c : Byte) (slow : Bool) : Statement (.selectPins d c slow) := fun _ => by
  refine wellFormed_command _ 0xF0000FFFF8000000#64 4#4 ?_ rfl ?_
  · apply BitVec.eq_of_getLsbD_eq
    intro k hk
    simp only [BitVec.getLsbD_extractLsb', BitVec.getLsbD_append]
    interval_cases k <;> simp
  · apply BitVec.eq_of_getLsbD_eq
    intro k hk
    rw [BitVec.getLsbD_and]
    simp only [BitVec.getLsbD_append]
    interval_cases k <;> simp

theorem activate : Statement .activate := fun _ => by decide

theorem setPixel (i : Half) (r g b : Byte) : Statement (.setPixel i r g b) := fun _ => by
  refine wellFormed_command _ 0xFFFFFFFFFFF00000#64 6#4 ?_ rfl ?_
  · apply BitVec.eq_of_getLsbD_eq
    intro k hk
    simp only [BitVec.getLsbD_extractLsb', BitVec.getLsbD_append]
    interval_cases k <;> simp
  · apply BitVec.eq_of_getLsbD_eq
    intro k hk
    rw [BitVec.getLsbD_and]
    simp only [BitVec.getLsbD_append]
    interval_cases k <;> simp

theorem setPixelPacked (i : Half) (c : Word) : Statement (.setPixelPacked i c) := fun _ => by
  refine wellFormed_command _ 0xFFFFFFFFFFFFF000#64 7#4 ?_ rfl ?_
  · apply BitVec.eq_of_getLsbD_eq
    intro k hk
    simp only [BitVec.getLsbD_extractLsb', BitVec.getLsbD_append]
    interval_cases k <;> simp
  · apply BitVec.eq_of_getLsbD_eq
    intro k hk
    rw [BitVec.getLsbD_and]
    simp only [BitVec.getLsbD_append]
    interval_cases k <;> simp

theorem getPixelPacked (i : Half) : Statement (.getPixelPacked i) := fun _ => by
  refine wellFormed_command _ 0xFFFFF00000000000#64 8#4 ?_ rfl ?_
  · apply BitVec.eq_of_getLsbD_eq
    intro k hk
    simp only [BitVec.getLsbD_extractLsb', BitVec.getLsbD_append]
    interval_cases k <;> simp
  · apply BitVec.eq_of_getLsbD_eq
    intro k hk
    rw [BitVec.getLsbD_and]
    simp only [BitVec.getLsbD_append]
    interval_cases k <;> simp

theorem transmit : Statement .transmit := fun _ => by decide

theorem resize (n : Half) : Statement (.resize n) := fun _ => by
  refine wellFormed_command _ 0xFFFFF00000000000#64 10#4 ?_ rfl ?_
  · apply BitVec.eq_of_getLsbD_eq
    intro k hk
    simp only [BitVec.getLsbD_extractLsb', BitVec.getLsbD_append]
    interval_cases k <;> simp
  · apply BitVec.eq_of_getLsbD_eq
    intro k hk
    rw [BitVec.getLsbD_and]
    simp only [BitVec.getLsbD_append]
    interval_cases k <;> simp

theorem pack (r g b : Byte) : Statement (.pack r g b) := fun _ => by
  refine wellFormed_command _ 0xF0000FFFFFF00000#64 11#4 ?_ rfl ?_
  · apply BitVec.eq_of_getLsbD_eq
    intro k hk
    simp only [BitVec.getLsbD_extractLsb', BitVec.getLsbD_append]
    interval_cases k <;> simp
  · apply BitVec.eq_of_getLsbD_eq
    intro k hk
    rw [BitVec.getLsbD_and]
    simp only [BitVec.getLsbD_append]
    interval_cases k <;> simp

theorem latchLength (n : Half) : Statement (.latchLength n) := fun _ => by
  refine wellFormed_command _ 0xFFFFF00000000000#64 12#4 ?_ rfl ?_
  · apply BitVec.eq_of_getLsbD_eq
    intro k hk
    simp only [BitVec.getLsbD_extractLsb', BitVec.getLsbD_append]
    interval_cases k <;> simp
  · apply BitVec.eq_of_getLsbD_eq
    intro k hk
    rw [BitVec.getLsbD_and]
    simp only [BitVec.getLsbD_append]
    interval_cases k <;> simp

theorem emitLatch : Statement .emitLatch := fun _ => by decide

theorem colourByte (x : BitVec 7) : Statement (.colourByte x) := fun _ => by
  have h : (1#1 ++ x : BitVec 8).getLsbD 7 = true := by
    simp only [BitVec.getLsbD_append]
    simp
  exact (congrArg (fun v => (1#1 ++ x : BitVec 8) == 0#8 || v) h).trans (Bool.or_true _)

theorem latchByte : Statement .latchByte := fun _ => by decide

end Sys2Proof.Laws.EncodedUnit
end

