-- ==== Sys2Proof/Laws/Wire.lean ====
section
/-! SUPPORT. The laws of the observed wire: appending events appends their bits, a byte's events are its eight bits on
either backend, grouping in eights gives the bytes back. -/

namespace Sys2Proof.Machine

/-- The bits of appended events, the data level carried over. -/
theorem wireBitsFrom_append (level : Bool) (xs ys : List Event) :
    wireBitsFrom level (xs ++ ys) = wireBitsFrom level xs ++ wireBitsFrom (levelAfter level xs) ys := by
  induction xs generalizing level with
  | nil => rfl
  | cons e xs ih => cases e <;> simp [wireBitsFrom, levelAfter, ih]

/-- The bits of one clocked bit, whatever the level before. -/
@[simp] theorem wireBitsFrom_bitEvents (level v : Bool) (ys : List Event) :
    wireBitsFrom level (bitEvents v ++ ys) = v :: wireBitsFrom v ys := rfl

/-- The bits of several clocked bits, whatever the level before. -/
theorem wireBitsFrom_flatMap_bitEvents (level : Bool) (vs : List Bool) :
    wireBitsFrom level (vs.flatMap bitEvents) = vs := by
  induction vs generalizing level with
  | nil => rfl
  | cons v vs ih => simp [List.flatMap_cons, ih]

/-- A byte's events clock its eight bits, bit 7 first, on either backend and whatever the level before. -/
theorem wireBitsFrom_byteEvents (level : Bool) (k : Backend) (b : Byte) (hk : k ≠ .none) :
    wireBitsFrom level (byteEvents k b) = bitsMsbFirst b := by
  cases k with
  | none => exact absurd rfl hk
  | native => rfl
  | manual d c slow => exact wireBitsFrom_flatMap_bitEvents level _

theorem wireBitsFrom_flatMap_byteEvents (level : Bool) (k : Backend) (bs : List Byte) (hk : k ≠ .none) :
    wireBitsFrom level (bs.flatMap (byteEvents k)) = bs.flatMap bitsMsbFirst := by
  induction bs generalizing level with
  | nil => rfl
  | cons b bs ih =>
    simp [List.flatMap_cons, wireBitsFrom_append, wireBitsFrom_byteEvents _ _ _ hk, ih]

@[simp] theorem length_bitsMsbFirst (b : Byte) : (bitsMsbFirst b).length = 8 := rfl

theorem length_flatMap_bitsMsbFirst (bs : List Byte) : (bs.flatMap bitsMsbFirst).length = 8 * bs.length := by
  induction bs with
  | nil => rfl
  | cons b bs ih =>
    simp only [List.flatMap_cons, List.length_append, length_bitsMsbFirst, ih, List.length_cons]
    omega

/-- Grouping a byte's bits gives the byte back. -/
theorem byteOfBits_bitsMsbFirst (b : Byte) :
    byteOfBits (b.getLsbD 7) (b.getLsbD 6) (b.getLsbD 5) (b.getLsbD 4) (b.getLsbD 3) (b.getLsbD 2) (b.getLsbD 1)
      (b.getLsbD 0) = b := by
  have : ∀ b : BitVec 8, byteOfBits (b.getLsbD 7) (b.getLsbD 6) (b.getLsbD 5) (b.getLsbD 4) (b.getLsbD 3)
      (b.getLsbD 2) (b.getLsbD 1) (b.getLsbD 0) = b := by
    intro b
    apply BitVec.eq_of_getLsbD_eq
    intro i hi
    interval_cases i <;> simp [byteOfBits]
  exact this b

theorem bytesOfBits_bitsMsbFirst_append (b : Byte) (rest : List Bool) :
    bytesOfBits (bitsMsbFirst b ++ rest) = b :: bytesOfBits rest := by
  simp only [bitsMsbFirst, List.cons_append, List.nil_append, bytesOfBits, byteOfBits_bitsMsbFirst]

/-- Grouping the bits of a list of bytes gives the bytes back. -/
theorem bytesOfBits_flatMap_bitsMsbFirst (bs : List Byte) : bytesOfBits (bs.flatMap bitsMsbFirst) = bs := by
  induction bs with
  | nil => rfl
  | cons b bs ih => rw [List.flatMap_cons, bytesOfBits_bitsMsbFirst_append, ih]

/-- Grouping whole bytes first changes nothing of what follows. -/
theorem bytesOfBits_append (xs ys : List Bool) (h : xs.length % 8 = 0) :
    bytesOfBits (xs ++ ys) = bytesOfBits xs ++ bytesOfBits ys := by
  induction xs using bytesOfBits.induct with
  | case1 b7 b6 b5 b4 b3 b2 b1 b0 rest ih =>
    have hr : rest.length % 8 = 0 := by
      simp only [List.length_cons] at h
      omega
    simp only [List.cons_append, bytesOfBits, ih hr]
  | case2 xs hx =>
    match xs, h, hx with
    | [], _, _ => rfl
    | _ :: _ :: _ :: _ :: _ :: _ :: _ :: _ :: _, _, hx => exact absurd rfl (hx _ _ _ _ _ _ _ _ _)

end Sys2Proof.Machine
end

