-- ==== Sys2Proof/Tests/Slice0.lean ====
section
/-! SUPPORT. Small tests. Expected values are those of spec/95_test_vectors.md (named in the comments), of the worked
examples of the rules, or hand calculation from the rules. The second half shows states that meet the hypotheses of
the statements. -/

namespace Sys2Proof.Tests

open Sys2Proof.Machine

/-! ### Helpers -/

/-- The parameters of the test vectors; 1000 stands for `hz`. -/
def cfg : Config := { settleDelayMs := 3, allocRefused := [], nativePresent := true, nativeClockHz := 1000 }

/-- Reset with the test parameters. -/
def start : State := State.resetWith cfg

/-- Active on the native backend, `n` LEDs. -/
def native (n : Half) (pix : Memory) : State :=
  { start with
    fsm := .active, backend := .native, length := n, pix := pix
    lines := { dat := false, clk := false, drive := false, nativeOn := true } }

/-- Active on the manual backend, pins 2 and 3, `n` LEDs. -/
def pins (n : Half) (pix : Memory) : State :=
  { start with
    fsm := .active, backend := .manual 2 3 false, length := n, pix := pix
    lines := { dat := true, clk := false, drive := true, nativeOn := false } }

/-- What `f` sees in the next state. -/
def sees {α : Type} (f : State → α) : Host.Outcome State Fault Refusal → Option α
  | .next s => some (f s)
  | .fault _ => none
  | .refused _ => none

/-- The final state's `f` and the responses of a run. -/
def runSees {α : Type} (f : State → α) :
    Host.Outcome (State × List (BitVec 4 × Word)) Fault Refusal → Option (α × List (BitVec 4 × Word))
  | .next (s, responses) => some (f s, responses)
  | .fault _ => none
  | .refused _ => none

/-- `n` steps after starting a command in its split form. -/
def splitRun (n : Nat) : Host.Outcome State Fault Refusal → Host.Outcome State Fault Refusal
  | .next u => Host.Core.run Sys2Proof.core n u
  | .fault f => .fault f
  | .refused r => .refused r

/-- Does the machine's invariant hold? -/
def meetsMachineInv (s : State) : Bool := decide (MachineInv s)

/-- Does the cursor's invariant hold? -/
def meetsCursorInv (s : State) : Bool := decide (CursorInv s)

/-- The lengths on a bench after a command. -/
def benchLengths : Option (Host.Outcome (List State) Fault Refusal) → Option (List Half)
  | some (.next bench) => some (bench.map State.length)
  | _ => none

/-- The refusal, if it is one. -/
def refusal : Host.Outcome State Fault Refusal → Option Refusal
  | .refused r => some r
  | .next _ => none
  | .fault _ => none

/-- The bytes of the store. -/
def store (s : State) : List Byte := s.colourBytes

/-- The response of a command. -/
def answer (s : State) : Status × Word := (s.status, s.result)

/-! ### WellFormed: one ill-formed unit per check -/

theorem test_reserved_opcode_ill_formed : (Presented.command 0xE000000000000000).wellFormed = false := by decide
theorem test_ignored_bit_ill_formed : (Presented.command 0x3000000000000001).wellFormed = false := by decide
theorem test_unsent_wire_byte_ill_formed : (Presented.wireUnit 0x7F).wellFormed = false := by decide

/-! ### Decode: words written out from R60, R61 and the words of V1, V2, V6 and P1 -/

theorem test_decode_constructNative :
    decode (.command 0x1000500000000000) = .ok (.constructNative 5) := by decide
theorem test_decode_constructPins :
    decode (.command 0x2000102038000000) = .ok (.constructPins 1 2 3 true) := by decide
theorem test_decode_selectNative : decode (.command 0x3000000000000000) = .ok .selectNative := by decide
theorem test_decode_selectPins :
    decode (.command 0x40000FF008000000) = .ok (.selectPins 255 0 true) := by decide
theorem test_decode_activate : decode (.command 0x5000000000000000) = .ok .activate := by decide
theorem test_decode_setPixel :
    decode (.command 0x6000400FF0000000) = .ok (.setPixel 4 0 255 0) := by decide
theorem test_decode_setPixelPacked :
    decode (.command 0x7002000C88C83000) = .ok (.setPixelPacked 32 0x00C88C83) := by decide
theorem test_decode_getPixelPacked : decode (.command 0x8002100000000000) = .ok (.getPixelPacked 33) := by decide
theorem test_decode_transmit : decode (.command 0x9000000000000000) = .ok .transmit := by decide
theorem test_decode_resize : decode (.command 0xA00C800000000000) = .ok (.resize 200) := by decide
theorem test_decode_pack : decode (.command 0xB00000CC80300000) = .ok (.pack 12 200 3) := by decide
theorem test_decode_latchLength : decode (.command 0xCFFFF00000000000) = .ok (.latchLength 65535) := by decide
theorem test_decode_emitLatch : decode (.command 0xD000000000000000) = .ok .emitLatch := by decide
theorem test_decode_colourByte : decode (.wireUnit 0b10000010) = .ok (.colourByte 2) := by decide
theorem test_decode_latchByte : decode (.wireUnit 0b00000000) = .ok .latchByte := by decide
/-- V7. -/
theorem test_decode_reserved :
    decode (.command 0x0FFFFFFFFFFFFFFF) = .error (.reservedOpcode 0)
      ∧ decode (.command 0xE000000000000000) = .error (.reservedOpcode 14)
      ∧ decode (.command 0xF000000000000000) = .error (.reservedOpcode 15) := by decide
/-- R60: ignored bits do not matter. -/
theorem test_decode_ignored_bits : decode (.command 0x5FFFFFFFFFFFFFFF) = .ok .activate := by decide
/-- The words of V6 and V2. -/
theorem test_encode :
    encode (.constructPins 1 2 3 true) = .command 0x2000102038000000
      ∧ encode (.setPixelPacked 1 0x0091A2B3) = .command 0x700010091A2B3000
      ∧ encode (.pack 127 0 64) = .command 0xB00007F004000000 := by decide
theorem test_decodeTableWord :
    decodeTableWord 64 0x6000400FF0000000 = some (.setPixel 4 0 255 0) ∧ decodeTableWord 8 0xC8 = some (.colourByte 72)
      ∧ decodeTableWord 8 0 = some .latchByte ∧ decodeTableWord 64 0 = none := by decide

/-! ### PixelBuffer (V1, V2, S5) -/

theorem test_setPixel : sees store (exec (.setPixel 1 200 128 127) (native 3 []))
    = some [0x80, 0x80, 0x80, 0x80, 0xC8, 0xFF, 0x80, 0x80, 0x80] := by decide
theorem test_setPixel_at_length : sees store (exec (.setPixel 3 9 9 9) (native 3 []))
    = some [0x80, 0x80, 0x80, 0x80, 0x80, 0x80, 0x80, 0x80, 0x80] := by decide
theorem test_setPixelPacked : sees store (exec (.setPixelPacked 1 0xFF112233) (native 3 []))
    = some [0x80, 0x80, 0x80, 0x91, 0xA2, 0xB3, 0x80, 0x80, 0x80] := by decide
/-- Writing the off byte leaves no cell. -/
theorem test_setPixelPacked_off :
    sees State.pix (exec (.setPixelPacked 1 0) (native 3 [(3, 0x91), (4, 0xA2), (8, 0xFF)])) = some [(8, 0xFF)] := by
  decide
theorem test_getPixelPacked :
    sees answer (exec (.getPixelPacked 1) (native 3 [(3, 0xC8), (4, 0x8C), (5, 0x83)]))
      = some (.ok, 0x00480C03) := by decide
theorem test_getPixelPacked_at_length :
    sees answer (exec (.getPixelPacked 3) (native 3 [(0, 0xFF)])) = some (.ok, 0) := by decide
theorem test_resize :
    sees (fun t => (t.fsm, t.length, store t, t.wire)) (exec (.resize 2) (native 5 [(1, 0xFF)]))
      = some (.active, 2, [0x80, 0x80, 0x80, 0x80, 0x80, 0x80], []) := by decide
/-- `alloc_ok(n) = (n <= 100)`. -/
theorem test_resize_fails :
    sees (fun t => (t.length, store t, answer t)) (exec (.resize 200) { native 5 [] with cfg := cfg.ofCapacity 100 })
      = some (0, [], .allocationFailure, 0) := by decide
theorem test_pack : sees answer (exec (.pack 12 200 3) start) = some (.ok, 0x00C88C83) := by decide
theorem test_pack_order : sees answer (exec (.pack 127 0 64) start) = some (.ok, 0x0080FFC0) := by decide

/-! ### StripTransmitter (V3, V4, V5, V6) -/

theorem test_latchLength_guard :
    sees answer (exec (.latchLength 33) start) = some (.ok, 2) ∧ sees answer (exec (.latchLength 64) start) = some (.ok, 2)
      ∧ sees answer (exec (.latchLength 65) start) = some (.ok, 3)
      ∧ sees answer (exec (.latchLength 97) start) = some (.ok, 4) := by decide
theorem test_latchLength_ends :
    sees answer (exec (.latchLength 0) start) = some (.ok, 0)
      ∧ sees answer (exec (.latchLength 65504) start) = some (.ok, 2047)
      ∧ sees answer (exec (.latchLength 65505) start) = some (.ok, 2048)
      ∧ sees answer (exec (.latchLength 65535) start) = some (.ok, 2048) := by decide
theorem test_constructNative :
    sees (fun t => (t.fsm, t.backend, store t, t.wire)) (exec (.constructNative 2) (native 5 [(0, 0xFF)]))
      = some (.configured, .native, [0x80, 0x80, 0x80, 0x80, 0x80, 0x80], [.nativeEnd]) := by decide
theorem test_constructNative_fails :
    sees (fun t => (t.fsm, t.backend, t.length, answer t))
        (exec (.constructNative 200) { start with cfg := cfg.ofCapacity 100 })
      = some (.configured, .native, 0, .allocationFailure, 0) := by decide
theorem test_constructPins :
    sees (fun t => (t.fsm, t.backend, t.length, t.wire)) (exec (.constructPins 1 2 3 true) start)
      = some (.configured, .manual 2 3 true, 1, []) := by decide
theorem test_selectNative :
    sees (fun t => (t.fsm, t.backend, t.lines.drive, t.wire)) (exec .selectNative (pins 1 []))
      = some (.configured, .native, false, [.pinsRelease 2 3]) := by decide
theorem test_selectPins :
    sees (fun t => (t.fsm, t.backend, t.lines.nativeOn, t.wire)) (exec (.selectPins 255 0 true) (native 5 []))
      = some (.configured, .manual 255 0 true, false, [.nativeEnd]) := by decide
theorem test_activate_native :
    sees (fun t => (t.fsm, t.lines.nativeOn, t.wire)) (exec .activate { native 33 [] with fsm := .configured })
      = some (.active, true,
        [.nativeBegin, .nativeSetClock 1000, .nativeByte 0x00, .nativeByte 0x00]) := by decide
theorem test_activate_pins :
    sees (fun t => (t.lines, wireBytes t.wire, t.wire.length)) (exec .activate { pins 1 [] with fsm := .configured })
      = some (({ dat := false, clk := false, drive := true, nativeOn := false } : Lines), [0x00], 25) := by decide
/-- V5: `PIX = 82 81 83`. -/
theorem test_transmit_native :
    sees State.wire (exec .transmit (native 1 [(0, 0x82), (1, 0x81), (2, 0x83)]))
      = some [.nativeByte 0x82, .nativeByte 0x81, .nativeByte 0x83, .nativeByte 0x00, .settle 3] := by decide
theorem test_transmit_pins :
    sees (fun t => (t.wire.take 6, t.wire.length, wireBytes t.wire))
        (exec .transmit (pins 1 [(0, 0x82), (1, 0x81), (2, 0x83)]))
      = some ([.dat true, .clkHigh, .clkLow, .dat false, .clkHigh, .clkLow], 97,
        [0x82, 0x81, 0x83, 0x00]) := by decide
theorem test_emitLatch :
    sees State.wire (exec .emitLatch (native 40 [])) = some [.nativeByte 0x00, .nativeByte 0x00] := by decide
theorem test_emitLatch_empty : sees State.wire (exec .emitLatch (native 0 [])) = some [] := by decide

/-! ### Wire units, the wire, the written form, instances -/

/-- The bits of V5's byte 82. -/
theorem test_colourByte :
    sees (fun t => wireBits t.wire) (exec (.colourByte 2) (pins 1 []))
      = some [true, false, false, false, false, false, true, false] := by decide
theorem test_latchByte :
    sees State.wire (exec .latchByte (native 1 [])) = some [.nativeByte 0x00] := by decide
theorem test_wireFrames :
    wireFrames [.nativeByte 0x82, .settle 3, .pinsOutput 2 3, .dat true, .clkHigh, .clkLow]
      = [[true, false, false, false, false, false, true, false], [true]] := by decide
theorem test_wireLines :
    wireLines [.nativeByte 0x80, .nativeEnd, .pinsOutput 2 3] = [[.nativeByte 0x80], [.pinsOutput 2 3]] := by decide
theorem test_written : (Instr.setPixel 4 0 255 0).written = "SET_PIXEL 4, 0, 255, 0" := by decide
theorem test_pseudo : (Pseudo.construct 5 none).expand = .constructNative 5 := by decide

/-! ### States that meet the statements' hypotheses -/

/-- A one-command port. -/
def withCommand (w : CommandWord) (s : State) : State := { s with port := [.command w] }

theorem test_hyp_wellFormed_units :
    (Presented.command 0x2000102038000000).wellFormed = true ∧ (Presented.wireUnit 0x00).wellFormed = true
      ∧ (Presented.wireUnit 0x80).wellFormed = true ∧ (Presented.wireUnit 0xFF).wellFormed = true := by decide
theorem test_hyp_ignored_bits : usedBits (opcodeField 0x3FFFFFFFFFFFFFFF).toNat = some 0xF000000000000000 := by decide
theorem test_hyp_reserved_step :
    refusal (step (withCommand 0x0FFFFFFFFFFFFFFF start)) = some (.reservedOpcode 0)
      ∧ refusal (step (withCommand 0xE000000000000000 start)) = some (.reservedOpcode 14)
      ∧ refusal (step (withCommand 0xF000000000000000 start)) = some (.reservedOpcode 15) := by decide
theorem test_hyp_wire_units :
    decode (.wireUnit 0x80) = .ok (.colourByte 0) ∧ decode (.wireUnit 0xFF) = .ok (.colourByte 127)
      ∧ decode (.wireUnit 0x01) = .error (.unsentWireByte 0x01)
      ∧ decode (.wireUnit 0x7F) = .error (.unsentWireByte 0x7F) := by decide
theorem test_hyp_step_runs :
    start.running = none ∧ (withCommand 0xA000300000000000 start).port = [.command 0xA000300000000000]
      ∧ decode (.command 0xA000300000000000) = .ok (.resize 3) ∧ (Instr.resize 3).wellFormed = true
      ∧ sees State.length (step (withCommand 0xA000300000000000 start)) = some 3 := by decide
theorem test_hyp_step_waits : start.running = none ∧ start.port = [] ∧ sees id (step start) = some start := by decide
/-- Pixel statements: the first and the last pixel, the first index out of range, a strip of length 0. -/
theorem test_hyp_pixel_ranges :
    (0 : Half) < (native 3 []).length ∧ (2 : Half) < (native 3 []).length ∧ (native 3 []).length ≤ (3 : Half)
      ∧ (native 0 []).length = 0 ∧ ((1 : Half) ≠ 2) := by decide
/-- Allocation at the ends of a capacity of 100. -/
theorem test_hyp_allocation :
    allocOk (cfg.ofCapacity 100) 0 = true ∧ allocOk (cfg.ofCapacity 100) 100 = true
      ∧ allocOk (cfg.ofCapacity 100) 101 = false ∧ allocOk (cfg.ofCapacity 100) 65535 = false := by decide
theorem test_hyp_activate_native :
    (native 5 []).fsm ≠ .uninitialized ∧ (native 5 []).backend = .native ∧ (native 5 []).cfg.nativePresent = true := by
  decide
theorem test_hyp_activate_pins :
    (pins 5 []).fsm ≠ .uninitialized ∧ (pins 5 []).backend = .manual 2 3 false := by decide
theorem test_hyp_activate_unavailable :
    sees answer (exec .activate start) = some (.backendUnavailable, 0)
      ∧ sees answer (exec .activate { native 5 [] with fsm := .configured, cfg := { cfg with nativePresent := false } })
        = some (.backendUnavailable, 0) := by decide
theorem test_hyp_active : (native 0 []).fsm = .active ∧ (pins 0 []).fsm = .active := by decide
theorem test_hyp_not_active :
    start.fsm ≠ .active ∧ refusal (exec .transmit start) = some .notActive := by decide
/-- An empty strip's TRANSMIT still settles (R85). -/
theorem test_hyp_transmit_empty :
    sees State.wire (exec .transmit (native 0 [])) = some [.settle 3]
      ∧ sees State.wire (exec .transmit (pins 0 [])) = some [.settle 3] := by decide
theorem test_hyp_two_backends :
    sees (fun t => (t.status, wireBytes t.wire)) (exec .emitLatch { native 1 [] with backend := .manual 2 3 true })
      = sees (fun t => (t.status, wireBytes t.wire)) (exec .emitLatch (native 1 [])) := by decide
theorem test_hyp_activate_completes :
    sees State.status (exec .activate (native 1 [])) = some .ok
      ∧ sees State.status (exec .activate (pins 1 [])) = some .ok := by decide
theorem test_hyp_pixel_transmit :
    (4 : Half) < (native 5 []).length ∧ (native 5 []).fsm = .active ∧ (native 5 []).backend ≠ .none := by decide
theorem test_hyp_completing_commands :
    isCommand (.resize 200) = true
      ∧ sees State.status (exec (.resize 200) { start with cfg := cfg.ofCapacity 100 }) = some .allocationFailure
      ∧ isCommand .activate = true ∧ sees State.status (exec .activate start) = some .backendUnavailable
      ∧ isCommand (.pack 1 2 3) = true ∧ sees State.result (exec (.pack 1 2 3) start) = some 0x00828183 := by decide
/-- P3's bounds and P1's shape: construct, activate, set, transmit from reset. -/
theorem test_hyp_run :
    runSees (fun t => wireBytes t.wire)
        (runCommands [.constructNative 2, .activate, .setPixel 1 0 255 0, .transmit] start)
      = some ([0x00, 0x80, 0x80, 0x80, 0xFF, 0x80, 0x80, 0x00], [(0, 0), (0, 0), (0, 0), (0, 0)]) := by decide
theorem test_hyp_machine_invariant :
    meetsMachineInv (withCommand 0x9000000000000000 (native 1 [(0, 0x82)])) = true
      ∧ meetsMachineInv (withCommand 0x3000000000000000 (pins 1 [(2, 0xFF)])) = true := by decide
theorem test_hyp_cursor_invariant :
    meetsCursorInv { native 1 [] with running := some .transmit, txc := { phase := .colour, byteIx := 2, bitIx := 0 } }
        = true
      ∧ meetsCursorInv { pins 33 [] with running := some .activate, txc := { phase := .latch, byteIx := 1, bitIx := 3 } }
        = true := by decide
/-- The split TRANSMIT of one pixel on the native backend: five positions to the settle's end. -/
theorem test_hyp_split :
    sees id (splitRun 5 ((native 1 [(0, 0x82)]).beginCommand .transmit))
      = sees id (exec .transmit (native 1 [(0, 0x82)])) := by decide
/-- The split latch of one pixel on the manual backend: eight positions, bit 7 to bit 0. -/
theorem test_hyp_split_pins :
    sees id (splitRun 8 ((pins 1 []).beginCommand .emitLatch)) = sees id (exec .emitLatch (pins 1 [])) := by decide
theorem test_hyp_slow :
    eraseSlow { pins 1 [] with backend := .manual 2 3 true } = pins 1 [] ∧ eraseSlow (native 1 []) = native 1 [] := by
  decide
theorem test_hyp_undriven :
    maskFloating { start with lines := { start.lines with dat := true, clk := true } } = start := by decide
theorem test_hyp_degrade_and_recover :
    allocOk (cfg.ofCapacity 100) 200 = false ∧ allocOk (cfg.ofCapacity 100) 3 = true ∧ (2 : Half) < 3
      ∧ sees State.length (exec (.resize 200) { native 5 [] with cfg := cfg.ofCapacity 100 }) = some 0 := by decide
theorem test_hyp_machine_invariant_steps :
    sees State.status (step (withCommand 0x9000000000000000 (native 1 [(0, 0x82)]))) = some .ok
      ∧ sees State.fsm (step (withCommand 0x3000000000000000 (pins 1 [(2, 0xFF)]))) = some .configured := by decide
theorem test_hyp_cursor_steps :
    sees State.running (step { native 1 [] with
        running := some .transmit, txc := { phase := .colour, byteIx := 2, bitIx := 0 } }) = some (some .transmit)
      ∧ meetsCursorInv (native 1 []) = true
      ∧ sees State.txc ((native 1 []).beginCommand .transmit)
        = some { phase := .colour, byteIx := 0, bitIx := 0 } := by decide
theorem test_hyp_different_pixels :
    ((0 : Half) ≠ 2) ∧ ∃ t u v w, exec (.setPixel 0 1 2 3) (native 3 []) = .next t ∧ exec (.setPixel 2 4 5 6) t = .next u
      ∧ exec (.setPixel 2 4 5 6) (native 3 []) = .next v ∧ exec (.setPixel 0 1 2 3) v = .next w :=
  ⟨by decide, _, _, _, _, rfl, rfl, rfl, rfl⟩
/-- The four cases of a selection: not Active, and Active with each kind of backend. -/
theorem test_hyp_selection_cases :
    sees State.wire (exec .selectNative start) = some []
      ∧ sees State.wire (exec .selectNative { start with fsm := .active }) = some []
      ∧ sees State.wire (exec .selectNative (native 1 [])) = some [.nativeEnd]
      ∧ sees State.wire (exec .selectNative (pins 1 [])) = some [.pinsRelease 2 3] := by decide
/-- The last byte of a new store and the first address above it. -/
theorem test_hyp_allocation_ends :
    sees (fun t => (t.pixByte 5, t.pixByte 6)) (exec (.resize 2) (native 5 [(1, 0xFF), (6, 0xFF)]))
      = some (some 0x80, none) := by decide
theorem test_hyp_markers (a : Nat) (b : Byte) (h : (native 1 [(0, 0x82)]).pixByte a = some b) :
    b.getLsbD 7 = true := by
  have ha : a < 3 := by
    by_contra hn
    have : ¬ a < (native 1 [(0, 0x82)]).storeSize := hn
    rw [State.pixByte, if_neg this] at h
    cases h
  interval_cases a <;> (cases h; decide)
/-- After a RESIZE or a CONSTRUCT the last pixel reads 0 (R73). -/
theorem test_hyp_read_after_new :
    (match exec (.resize 2) (native 5 [(5, 0xFF)]) with
      | .next u => sees answer (exec (.getPixelPacked 1) u)
      | _ => none) = some (.ok, 0)
      ∧ (match exec (.constructPins 2 1 2 true) (native 5 [(5, 0xFF)]) with
      | .next u => sees answer (exec (.getPixelPacked 1) u)
      | _ => none) = some (.ok, 0) := by decide
theorem test_withFetchWord :
    sees State.length (step (State.reset.withFetchWord 64 0xA000300000000000)) = some 3
      ∧ refusal (step (State.reset.withFetchWord 8 0x80)) = some .notActive := by decide
theorem test_hyp_bench : benchLengths (benchExec 1 (.resize 3) [start, start]) = some [0, 3] := by decide

end Sys2Proof.Tests
end

/-! The latch length command (R4, R86): what it does to any state, and why its answer is the ceiling of `n / 32`. -/

namespace Sys2Proof.Machine

/-- LATCH_LENGTH answers the latch length of its operand and completes ok (R86). -/
theorem exec_latchLength (s : State) (n : Half) :
    exec (.latchLength n) s = .next (s.complete .ok (BitVec.ofNat 32 (latchLen n))) := rfl

/-- The ceiling as an adjoint (R4): `q` latch bytes cover `n` LEDs at 32 each exactly when `q` is at least `latchLen n`. -/
theorem latchLen_le_iff (n : Half) (q : Nat) : latchLen n ≤ q ↔ n.toNat ≤ 32 * q := by
  rw [latchLen_eq]
  omega

/-- A latch length is at most 2048, so the 32-bit result word holds it whole. -/
theorem toNat_ofNat_latchLen (n : Half) : (BitVec.ofNat 32 (latchLen n)).toNat = latchLen n := by
  have hle : latchLen n ≤ 2048 := latchLen_le n
  rw [BitVec.toNat_ofNat, Nat.mod_eq_of_lt (by omega)]

/-- Settles O18: the result word holds `latchLen n` whole, and both bounds are the adjunction `latchLen_le_iff`, the first
at `latchLen n` itself. -/
theorem latchLengthIsOneBytePerThirtyTwoLeds : Obligations.LatchLengthIsOneBytePerThirtyTwoLeds := by
  intro s n
  refine ⟨_, exec_latchLength s n, rfl, ?_, fun q hq => ?_⟩
  · rw [State.complete_result, toNat_ofNat_latchLen]
    exact (latchLen_le_iff n _).mp le_rfl
  · rw [State.complete_result, toNat_ofNat_latchLen]
    exact (latchLen_le_iff n q).mpr hq

end Sys2Proof.Machine

/-! The marker bit (R15): every byte of the store has bit 7 set after reset, and every instruction keeps it so. An
instruction does one of three things to the store: it leaves it alone, it replaces it by a new one that is all off, or
it writes the three marked bytes of one pixel. -/

namespace Sys2Proof.Machine

/-- The marker invariant (R15): every byte of the store has its most-significant bit set. -/
def State.Marked (s : State) : Prop := ∀ a b, s.pixByte a = some b → b.getLsbD 7 = true

/-! ### The bytes that are stored -/

theorem getLsbD_markByte (v : Byte) : (markByte v).getLsbD 7 = true := by
  have hmask : (0x80#8).getLsbD 7 = true := by decide
  rw [markByte, BitVec.getLsbD_or, hmask, Bool.or_true]

theorem getLsbD_offByte : offByte.getLsbD 7 = true := by decide

/-- Every address of a store with no cell written reads as off (R14). -/
theorem Memory.read_nil (a : Nat) : Memory.read [] a = offByte := rfl

/-- The three bytes of the pixel have their marker. -/
def StoredPixel.Marked (p : StoredPixel) : Prop :=
  p.green.getLsbD 7 = true ∧ p.red.getLsbD 7 = true ∧ p.blue.getLsbD 7 = true

/-- R57: a pixel made of channel operands is marked, whatever the operands. -/
theorem StoredPixel.marked_markByte (g r b : Byte) : StoredPixel.Marked ⟨markByte g, markByte r, markByte b⟩ :=
  ⟨getLsbD_markByte g, getLsbD_markByte r, getLsbD_markByte b⟩

/-! ### The shared operations and the marker -/

/-- PIX and LENGTH decide whether a state is marked; nothing else does. -/
theorem State.Marked.of_same_store {s t : State} (hs : s.Marked) (hpix : t.pix = s.pix) (hlen : t.length = s.length) :
    t.Marked := by
  intro a b hb
  have hbyte : t.pixByte a = s.pixByte a := by
    unfold State.pixByte State.storeSize
    rw [hpix, hlen]
  exact hs a b (hbyte.symm.trans hb)

/-- A store with no cell written is marked, of any length: its bytes are all off. -/
theorem State.marked_of_pix_nil {s : State} (hpix : s.pix = []) : s.Marked := by
  intro a b hb
  obtain ⟨-, hread⟩ : a < s.storeSize ∧ s.pix.read a = b := by simpa [State.pixByte] using hb
  rw [← hread, hpix, Memory.read_nil]
  exact getLsbD_offByte

theorem State.marked_resetWith (c : Config) : (State.resetWith c).Marked := State.marked_of_pix_nil rfl

/-- NEW and RESIZE leave a marked store whatever stood before, the degraded strip included. -/
theorem State.marked_newStore (n : Half) (s : State) : (s.newStore n).Marked := by
  obtain ⟨-, hnew⟩ | ⟨-, hnew⟩ := State.newStore_cases n s <;> rw [hnew] <;> exact State.marked_of_pix_nil rfl

/-- Selecting a backend leaves the store alone. -/
theorem State.select_same_store (k : Backend) (s : State) :
    (s.select k).pix = s.pix ∧ (s.select k).length = s.length := by
  obtain ⟨-, hsel⟩ | ⟨-, -, hsel⟩ | ⟨-, d, c, slow, -, hsel⟩ := State.select_cases k s <;> simp [hsel]

theorem State.Marked.select {s : State} (hs : s.Marked) (k : Backend) : (s.select k).Marked :=
  hs.of_same_store (s.select_same_store k).1 (s.select_same_store k).2

theorem State.Marked.complete {s : State} (hs : s.Marked) (st : Status) (r : Word) : (s.complete st r).Marked :=
  hs.of_same_store rfl rfl

/-- Writing a marked pixel inside the store keeps every byte marked. -/
theorem State.Marked.memWritePixel {s t : State} {addr : Nat} {p : StoredPixel} (hs : s.Marked) (hp : p.Marked)
    (h : s.memWritePixel addr p = .ok t) : t.Marked := by
  obtain ⟨-, -, hgreen, hred, hblue, hother, -, -⟩ := State.memWritePixel_spec s t addr p h
  obtain ⟨pgreen, pred, pblue⟩ := hp
  intro a b hb
  have hwhere : a = addr ∨ a = addr + 1 ∨ a = addr + 2 ∨ (a < addr ∨ addr + 3 ≤ a) := by omega
  obtain rfl | rfl | rfl | hout := hwhere
  · cases hgreen.symm.trans hb
    exact pgreen
  · cases hred.symm.trans hb
    exact pred
  · cases hblue.symm.trans hb
    exact pblue
  · exact hs a b ((hother a hout).symm.trans hb)

/-! ### The instructions and the marker -/

/-- A command that goes through the active backend and is not refused ends in the state its sending gives. -/
theorem marked_of_throughActiveBackend {s t : State} {send : State → State}
    (h : s.throughActiveBackend send = .next t) (hsend : (send s).Marked) : t.Marked := by
  obtain ⟨-, -, hnext⟩ | ⟨-, -, hrefused⟩ | ⟨-, hrefused⟩ := State.throughActiveBackend_cases send s
  · cases hnext.symm.trans h
    exact hsend
  · cases hrefused.symm.trans h
  · cases hrefused.symm.trans h

section
variable {s t : State} (hs : s.Marked)
include hs

theorem marked_of_storePixel {index : Half} {p : StoredPixel} (hp : p.Marked) (h : storePixel index p s = .next t) :
    t.Marked := by
  obtain ⟨-, u, hu, hnext⟩ | ⟨-, hnext⟩ := storePixel_cases index p s <;> cases hnext.symm.trans h
  · exact (hs.memWritePixel hp hu).complete .ok 0
  · exact hs.complete .ok 0

/-- Reading a pixel only completes, in range and out of range. -/
theorem marked_of_execGetPixelPacked {index : Half} (h : execGetPixelPacked index s = .next t) : t.Marked := by
  unfold execGetPixelPacked at h
  split at h
  · split at h
    · cases h
      exact hs.complete _ _
    · cases h
  · cases h
    exact hs.complete _ _

theorem marked_of_execActivate (h : execActivate s = .next t) : t.Marked := by
  unfold execActivate at h
  split at h <;> cases h <;> exact hs.of_same_store rfl rfl

theorem marked_of_execTransmit (h : execTransmit s = .next t) : t.Marked := by
  unfold execTransmit at h
  exact marked_of_throughActiveBackend h (hs.of_same_store (by simp) (by simp))

theorem marked_of_execEmitLatch (h : execEmitLatch s = .next t) : t.Marked := by
  unfold execEmitLatch at h
  exact marked_of_throughActiveBackend h (hs.of_same_store (by simp) (by simp))

/-- Every instruction keeps the marker invariant (R15). -/
theorem marked_of_exec {i : Instr} (h : exec i s = .next t) : t.Marked := by
  cases i with
  | constructNative n =>
    cases h
    exact State.marked_newStore n _
  | constructPins n d c slow =>
    cases h
    exact State.marked_newStore n _
  | resize n =>
    cases h
    exact State.marked_newStore n _
  | selectNative =>
    cases h
    exact (hs.select _).complete _ _
  | selectPins d c slow =>
    cases h
    exact (hs.select _).complete _ _
  | pack r g b =>
    cases h
    exact hs.complete _ _
  | latchLength n =>
    cases h
    exact hs.complete _ _
  | setPixel index r g b => exact marked_of_storePixel hs (StoredPixel.marked_markByte g r b) h
  | setPixelPacked index color => exact marked_of_storePixel hs (StoredPixel.marked_markByte _ _ _) h
  | getPixelPacked index => exact marked_of_execGetPixelPacked hs h
  | activate => exact marked_of_execActivate hs h
  | transmit => exact marked_of_execTransmit hs h
  | emitLatch => exact marked_of_execEmitLatch hs h
  | colourByte x => exact marked_of_throughActiveBackend h (hs.of_same_store rfl rfl)
  | latchByte => exact marked_of_throughActiveBackend h (hs.of_same_store rfl rfl)

end

/-- Settles O46: the empty store of reset is marked, and no instruction stores a byte without its marker. -/
theorem everyCommandKeepsTheMarkers : Obligations.EveryCommandKeepsTheMarkers :=
  ⟨State.marked_resetWith, fun _ _ _ hs h => marked_of_exec hs h⟩

end Sys2Proof.Machine

/-! An index out of range (R35, R122): the commands that take an index test it before they touch the store, and past that
test they only complete, with `(OK, 0)`. -/

namespace Sys2Proof.Machine

/-- With LENGTH = 0 no index is in range, so R122's two conditions are one: the index is not below LENGTH. -/
theorem State.not_index_lt_length {s : State} {index : Half} (h : s.length ≤ index ∨ s.length = 0) :
    ¬index < s.length := by
  obtain hle | hzero := h
  · exact BitVec.not_lt.mpr hle
  · rw [hzero]
    exact BitVec.not_lt_zero

section
variable {s : State} {index : Half} (hout : ¬index < s.length)
include hout

theorem storePixel_of_not_lt_length (p : StoredPixel) : storePixel index p s = .next (s.complete .ok 0) := by
  obtain ⟨hin, -⟩ | ⟨-, hnext⟩ := storePixel_cases index p s
  · exact absurd hin hout
  · exact hnext

theorem execGetPixelPacked_of_not_lt_length : execGetPixelPacked index s = .next (s.complete .ok 0) :=
  if_neg hout

end

/-- Settles O15: both writes store a pixel at `index`, the read tests the same `index`, and out of range each of them only
completes. -/
theorem outOfRangeIndexIsSilent : Obligations.OutOfRangeIndexIsSilent := by
  intro s index r g b color h
  have hout : ¬index < s.length := State.not_index_lt_length h
  exact ⟨storePixel_of_not_lt_length hout _, storePixel_of_not_lt_length hout _,
    execGetPixelPacked_of_not_lt_length hout⟩

end Sys2Proof.Machine

/-! PACK (R75) and the forms a colour takes in a word (R32, R55 to R58). Each bit of a packed word is a bit
of one of its bytes, so a mask acts on it byte by byte; and of forcing a marker and cutting it off only the later shows. -/

namespace Sys2Proof.Machine

/-- PACK answers the packed form of its operands and completes ok, whatever the state (R75). -/
theorem exec_pack (s : State) (r g b : Byte) :
    exec (.pack r g b) s = .next (s.complete .ok (packColour r g b)) := rfl

/-- Settles O13: the packed form is by definition the three marked bytes in their places, and PACK only completes. -/
theorem packForcesTheMarkerBits : Obligations.PackForcesTheMarkerBits :=
  fun s r g b => ⟨rfl, exec_pack s r g b⟩

/-! ### The bytes of a packed word -/

/-- The three bytes do not overlap in the word: each bit of it is a bit of one of them. -/
theorem getElem_placeBytes (g r b : Byte) (i : Nat) (hi : i < 32) :
    (placeBytes g r b)[i] = if i < 8 then b.getLsbD i else if i < 16 then r.getLsbD (i - 8) else g.getLsbD (i - 16) := by
  simp only [placeBytes, BitVec.getElem_or, BitVec.getElem_shiftLeft, BitVec.getElem_setWidth]
  split_ifs with hblue hred
  · have hlow : i < 16 := by omega
    simp [hblue, hlow]
  · have hpast : b.getLsbD i = false := BitVec.getLsbD_of_ge b i (by omega)
    simp [hblue, hred, hpast]
  · have hpast : b.getLsbD i = false := BitVec.getLsbD_of_ge b i (by omega)
    have hpast' : r.getLsbD (i - 8) = false := BitVec.getLsbD_of_ge r (i - 8) (by omega)
    simp [hred, hpast, hpast']

/-- A mask made of three bytes acts on each byte of the word apart. -/
theorem placeBytes_and_placeBytes (g r b g' r' b' : Byte) :
    placeBytes g r b &&& placeBytes g' r' b' = placeBytes (g &&& g') (r &&& r') (b &&& b') := by
  ext i hi
  simp only [BitVec.getElem_and, getElem_placeBytes, BitVec.getLsbD_and]
  split_ifs <;> rfl

/-- Stripping does not see a marker that was forced (R57, R76). -/
theorem stripByte_markByte (v : Byte) : stripByte (markByte v) = stripByte v := by
  have hmask : 0x80#8 &&& 0x7F#8 = 0#8 := by decide
  rw [stripByte, markByte, BitVec.and_or_distrib_right, hmask, BitVec.or_zero, stripByte]

/-- Forcing the marker does not see whether bit 7 was cut off before (R58, R65). -/
theorem markByte_setWidth_extractLsb' (c : Word) (k : Nat) :
    markByte ((c.extractLsb' k 7).setWidth 8) = markByte (c.extractLsb' k 8) := by
  have hmask : (0x80#8).getLsbD 7 = true := by decide
  ext i hi
  have hbit : i < 7 ∨ i = 7 := by omega
  simp only [markByte, BitVec.getElem_or, BitVec.getElem_setWidth, BitVec.getLsbD_extractLsb', BitVec.getElem_extractLsb']
  obtain hlow | rfl := hbit
  · rw [decide_eq_true hlow, Bool.true_and]
  · simp only [← BitVec.getLsbD_eq_getElem, hmask, Bool.or_true]

end Sys2Proof.Machine

/-! The pixel commands with their frames (R71 to R73): the two writes are one shared write of three marked bytes, the read
a mask over the three stored bytes. -/

namespace Sys2Proof.Machine

/-! ### Writing a pixel -/

/-- Writing a pixel, whole: its three bytes in range, nothing out of range, and no other field but the response. -/
theorem storePixel_spec (index : Half) (p : StoredPixel) (s : State) :
    ∃ t, storePixel index p s = .next t
      ∧ t = { s with pix := t.pix, status := .ok, result := 0 }
      ∧ (index < s.length →
          t.pixByte (pixelAddress index) = some p.green
            ∧ t.pixByte (pixelAddress index + 1) = some p.red
            ∧ t.pixByte (pixelAddress index + 2) = some p.blue
            ∧ ∀ a, a < pixelAddress index ∨ pixelAddress index + 3 ≤ a → t.pixByte a = s.pixByte a)
      ∧ (s.length ≤ index → t.pix = s.pix) := by
  obtain ⟨hin, u, hwrite, hnext⟩ | ⟨hout, hnext⟩ := storePixel_cases index p s
  · obtain ⟨-, hframe, hgreen, hred, hblue, hother, -, -⟩ := State.memWritePixel_spec s u _ p hwrite
    refine ⟨_, hnext, ?_, fun _ => ⟨hgreen, hred, hblue, hother⟩, fun hle => absurd hin (BitVec.not_lt.mpr hle)⟩
    rw [hframe]
    rfl
  · exact ⟨_, hnext, rfl, fun hin => absurd hin hout, fun _ => rfl⟩

/-- Settles O9: SET_PIXEL is the shared write of the three marked operands. -/
theorem setPixelStoresGreenRedBlue : Obligations.SetPixelStoresGreenRedBlue :=
  fun s index _ _ _ => ⟨rfl, storePixel_spec index _ s⟩

/-- SET_PIXEL on the channels a word unpacks to does what SET_PIXEL_PACKED does on the word (R72). -/
theorem exec_setPixel_unpackColour (s : State) (index : Half) (color : Word) :
    exec (.setPixel index ((unpackColour color).1.setWidth 8) ((unpackColour color).2.1.setWidth 8)
      ((unpackColour color).2.2.setWidth 8)) s = exec (.setPixelPacked index color) s := by
  simp only [exec, execSetPixel, execSetPixelPacked, unpackColour, markByte_setWidth_extractLsb', greenByteOf, redByteOf,
    blueByteOf]

/-- Settles O10: SET_PIXEL_PACKED is the shared write of the word's three marked bytes. -/
theorem setPixelPackedStoresTheWordsBytes : Obligations.SetPixelPackedStoresTheWordsBytes := by
  intro s index color
  obtain ⟨t, hnext, hframe, hin, hout⟩ := storePixel_spec index
    ⟨markByte (greenByteOf color), markByte (redByteOf color), markByte (blueByteOf color)⟩ s
  exact ⟨rfl, t, hnext, hframe, hin, hout, (exec_setPixel_unpackColour s index color).trans hnext⟩

/-! ### Reading a pixel -/

/-- The word GET_PIXEL_PACKED answers for a stored pixel (R73). -/
def StoredPixel.masked (p : StoredPixel) : Word :=
  placeBytes (stripByte p.green) (stripByte p.red) (stripByte p.blue)

/-- The answer is the packed form without its markers. -/
theorem StoredPixel.masked_eq_packColour_and (p : StoredPixel) :
    p.masked = packColour p.red p.green p.blue &&& 0x007F7F7F#32 := by
  have hmask : 0x007F7F7F#32 = placeBytes 0x7F 0x7F 0x7F := by decide
  calc p.masked
      = placeBytes (stripByte (markByte p.green)) (stripByte (markByte p.red)) (stripByte (markByte p.blue)) := by
        simp only [StoredPixel.masked, stripByte_markByte]
    _ = packColour p.red p.green p.blue &&& 0x007F7F7F#32 := by
        rw [hmask, packColour, placeBytes_and_placeBytes]
        rfl

/-- The answer has no bit outside the three intensities. -/
theorem StoredPixel.masked_and_markers (p : StoredPixel) : p.masked &&& 0xFF808080#32 = 0 := by
  have hmask : 0x007F7F7F#32 &&& 0xFF808080#32 = 0#32 := by decide
  rw [p.masked_eq_packColour_and, BitVec.and_assoc, hmask, BitVec.and_zero]
  rfl

/-- Reading a pixel in range never faults: it completes with the masked bytes of the pixel that stands there. -/
theorem execGetPixelPacked_of_lt_length {s : State} {index : Half} (hin : index < s.length) :
    ∃ p, s.memReadPixel (pixelAddress index) = .ok p
      ∧ execGetPixelPacked index s = .next (s.complete .ok p.masked) := by
  refine ⟨_, if_pos (pixelAddress_inside s index hin), ?_⟩
  simp [execGetPixelPacked, hin, State.memReadPixel, pixelAddress_inside s index hin, StoredPixel.masked]

/-- Every pixel of a store with no cell written is off, and so reads as 0. -/
theorem execGetPixelPacked_of_pix_nil {s : State} (index : Half) (hpix : s.pix = []) :
    execGetPixelPacked index s = .next (s.complete .ok 0) := by
  by_cases hin : index < s.length
  · obtain ⟨p, hread, hnext⟩ := execGetPixelPacked_of_lt_length hin
    have hoff : p = ⟨offByte, offByte, offByte⟩ := by
      rw [State.memReadPixel, if_pos (pixelAddress_inside s index hin), hpix] at hread
      cases hread
      rfl
    rw [hnext, hoff]
    rfl
  · exact execGetPixelPacked_of_not_lt_length hin

/-- NEW and RESIZE leave a store with no cell written, the degraded strip included (R70, R74). -/
theorem State.newStore_pix (n : Half) (s : State) : (s.newStore n).pix = [] := by
  obtain ⟨-, hnew⟩ | ⟨-, hnew⟩ := State.newStore_cases n s <;> rw [hnew]

/-- RESIZE and the two constructions end in NEW's store, whatever stood before (R74, R80, R81). -/
theorem pix_nil_of_exec_newStore {s u : State} {n : Half} {d c : Byte} {slow : Bool}
    (h : exec (.resize n) s = .next u ∨ exec (.constructNative n) s = .next u
      ∨ exec (.constructPins n d c slow) s = .next u) : u.pix = [] := by
  obtain h | h | h := h <;> cases h <;> exact State.newStore_pix n _

/-- Settles O11: in range the answer is the masked word of the pixel that stands there, out of range 0, and a new store
has no cell written. -/
theorem getPixelPackedReturnsTheMaskedBytes : Obligations.GetPixelPackedReturnsTheMaskedBytes := by
  intro s index
  refine ⟨rfl, ?_⟩
  have hnew (n : Half) (d c : Byte) (slow : Bool) (u : State)
      (h : exec (.resize n) s = .next u ∨ exec (.constructNative n) s = .next u
        ∨ exec (.constructPins n d c slow) s = .next u) :
      exec (.getPixelPacked index) u = .next { u with status := .ok, result := 0 } :=
    execGetPixelPacked_of_pix_nil index (pix_nil_of_exec_newStore h)
  by_cases hin : index < s.length
  · obtain ⟨p, hread, hnext⟩ := execGetPixelPacked_of_lt_length hin
    obtain ⟨hgreen, hred, hblue⟩ := State.memReadPixel_spec s _ p hread
    exact ⟨_, hnext, rfl,
      fun _ => ⟨p.green, p.red, p.blue, hgreen, hred, hblue, rfl, p.masked_eq_packColour_and⟩,
      p.masked_and_markers, fun hle => absurd hin (BitVec.not_lt.mpr hle), hnew⟩
  · exact ⟨_, execGetPixelPacked_of_not_lt_length hin, rfl, fun h => absurd h hin, BitVec.zero_and, fun _ => rfl, hnew⟩

end Sys2Proof.Machine

/-! One byte on the serial output (R100, R101, R102): what `emit_byte` appends to WIRE and where it leaves the lines, on
each backend. -/

namespace Sys2Proof.Machine

/-- The native backend hands the byte over whole: one event, which no line follows (R100). -/
theorem State.emitByte_of_native {s : State} (b : Byte) (hb : s.backend = .native) :
    s.emitByte b = { s with wire := s.wire ++ [.nativeByte b] } := by
  have hevents : byteEvents s.backend b = [.nativeByte b] := by rw [hb, byteEvents]
  rw [State.emitByte, hevents]
  rfl

/-- The manual backend clocks the byte's bits, bit 7 first, and ends on bit 0 with the clock low (R101, R102). -/
theorem State.emitByte_of_manual {s : State} {d c : Byte} {slow : Bool} (b : Byte)
    (hb : s.backend = .manual d c slow) :
    s.emitByte b = { s with
      wire := s.wire ++ (bitsMsbFirst b).flatMap bitEvents
      lines := { s.lines with dat := b.getLsbD 0, clk := false } } := by
  have hlines : (byteEvents s.backend b).foldl Lines.after s.lines
      = { s.lines with dat := b.getLsbD 0, clk := false } := by rw [hb, Lines.foldl_manual_byte]
  have hevents : byteEvents s.backend b = (bitsMsbFirst b).flatMap bitEvents := by rw [hb, byteEvents]
  rw [State.emitByte, State.emit, hlines, hevents]

/-- Settles O32: the manual clause lists the eight clocked bits of `emitByte_of_manual` event by event. -/
theorem emitByteOnBothBackends : Obligations.EmitByteOnBothBackends :=
  fun _ b => ⟨State.emitByte_of_native b, fun _ _ _ => State.emitByte_of_manual b⟩

end Sys2Proof.Machine

/-! The slow variant of the manual backend (R105). Clearing the slow bit commutes with every shared operation, because none
reads it, and so with every instruction, once the bit is cleared in the instruction's own operand too. -/

namespace Sys2Proof

/-- The instruction with the slow bit of its operand cleared. -/
def Instr.clearSlow : Instr → Instr
  | .constructPins n d c _ => .constructPins n d c false
  | .selectPins d c _ => .selectPins d c false
  | i => i

end Sys2Proof

namespace Sys2Proof.Machine

/-- The backend with its slow bit cleared. -/
def Backend.clearSlow : Backend → Backend
  | .manual d c _ => .manual d c false
  | k => k

theorem Backend.clearSlow_clearSlow (k : Backend) : k.clearSlow.clearSlow = k.clearSlow := by
  cases k <;> rfl

/-- What a backend sends for a byte does not depend on the slow bit (R105). -/
@[simp] theorem byteEvents_clearSlow (k : Backend) : byteEvents k.clearSlow = byteEvents k := by
  cases k <;> rfl

/-! ### The state with the slow bit cleared -/

/-- Only BACKEND changes. -/
theorem eraseSlow_eq (s : State) : eraseSlow s = { s with backend := s.backend.clearSlow } := by
  obtain ⟨fsm, backend⟩ := s
  cases backend <;> rfl

@[simp] theorem eraseSlow_fsm (s : State) : (eraseSlow s).fsm = s.fsm := by rw [eraseSlow_eq]
@[simp] theorem eraseSlow_backend (s : State) : (eraseSlow s).backend = s.backend.clearSlow := by rw [eraseSlow_eq]
@[simp] theorem eraseSlow_length (s : State) : (eraseSlow s).length = s.length := by rw [eraseSlow_eq]
@[simp] theorem eraseSlow_cfg (s : State) : (eraseSlow s).cfg = s.cfg := by rw [eraseSlow_eq]
@[simp] theorem eraseSlow_storeSize (s : State) : (eraseSlow s).storeSize = s.storeSize := by rw [eraseSlow_eq]; rfl
@[simp] theorem eraseSlow_latchBytes (s : State) : (eraseSlow s).latchBytes = s.latchBytes := by rw [eraseSlow_eq]; rfl
@[simp] theorem eraseSlow_colourBytes (s : State) : (eraseSlow s).colourBytes = s.colourBytes := by
  rw [eraseSlow_eq]; rfl

theorem eraseSlow_eraseSlow (s : State) : eraseSlow (eraseSlow s) = eraseSlow s := by
  simp only [eraseSlow_eq, Backend.clearSlow_clearSlow]

/-! ### The shared operations -/

@[simp] theorem eraseSlow_emit (evs : List Event) (s : State) : eraseSlow (s.emit evs) = (eraseSlow s).emit evs := by
  simp only [eraseSlow_eq]; rfl

@[simp] theorem eraseSlow_complete (st : Status) (r : Word) (s : State) :
    eraseSlow (s.complete st r) = (eraseSlow s).complete st r := by
  simp only [eraseSlow_eq]; rfl

@[simp] theorem eraseSlow_raise (st : Status) (s : State) : eraseSlow (s.raise st) = (eraseSlow s).raise st :=
  eraseSlow_complete st 0 s

@[simp] theorem eraseSlow_finish (s : State) : eraseSlow s.finish = (eraseSlow s).finish := by
  simp only [eraseSlow_eq]; rfl

@[simp] theorem eraseSlow_enable (evs : List Event) (s : State) :
    eraseSlow (s.enable evs) = (eraseSlow s).enable evs := by
  simp only [eraseSlow_eq]; rfl

@[simp] theorem eraseSlow_emitByte (b : Byte) (s : State) : eraseSlow (s.emitByte b) = (eraseSlow s).emitByte b := by
  simp [State.emitByte]

@[simp] theorem eraseSlow_emitBytes (bs : List Byte) (s : State) :
    eraseSlow (s.emitBytes bs) = (eraseSlow s).emitBytes bs := by
  simp [State.emitBytes]

@[simp] theorem eraseSlow_emitLatchSequence (s : State) :
    eraseSlow s.emitLatchSequence = (eraseSlow s).emitLatchSequence := by
  simp [State.emitLatchSequence]

@[simp] theorem eraseSlow_settleDelay (s : State) : eraseSlow s.settleDelay = (eraseSlow s).settleDelay := by
  simp [State.settleDelay]

@[simp] theorem eraseSlow_newStore (n : Half) (s : State) : eraseSlow (s.newStore n) = (eraseSlow s).newStore n := by
  unfold State.newStore
  rw [eraseSlow_cfg]
  split <;> simp only [eraseSlow_eq] <;> rfl

/-- Quiescing reads the old backend's kind and pins, never its slow bit (R88). -/
theorem eraseSlow_quiesce (s : State) : (eraseSlow s).quiesce = eraseSlow s.quiesce := by
  obtain ⟨fsm, backend⟩ := s
  cases backend <;> rfl

/-- Selecting forgets the old backend, slow bit included (R82, R83). -/
theorem select_eraseSlow (k : Backend) (s : State) : (eraseSlow s).select k = s.select k := by
  rw [State.select, eraseSlow_fsm, eraseSlow_quiesce, ← apply_ite eraseSlow, eraseSlow_eq]
  rfl

/-- The slow bit that selecting leaves is the new backend's. -/
theorem eraseSlow_select (k : Backend) (s : State) : eraseSlow (s.select k) = (eraseSlow s).select k.clearSlow := by
  rw [select_eraseSlow, eraseSlow_eq]
  rfl

/-- What enables a backend does not depend on its slow bit (R84, R104). -/
@[simp] theorem enableEvents_eraseSlow (s : State) : (eraseSlow s).enableEvents = s.enableEvents := by
  obtain ⟨fsm, backend⟩ := s
  cases backend <;> rfl

/-- The check before a send does not read the slow bit; so if the sending commutes with clearing it, the command does. -/
theorem mapNext_eraseSlow_throughActiveBackend {send : State → State} {s : State}
    (hsend : eraseSlow (send s) = send (eraseSlow s)) :
    mapNext eraseSlow (s.throughActiveBackend send) = (eraseSlow s).throughActiveBackend send := by
  unfold State.throughActiveBackend
  rw [eraseSlow_fsm, eraseSlow_backend, ← hsend]
  split
  · cases s.backend <;> rfl
  · rfl

/-! ### The instructions -/

theorem mapNext_eraseSlow_storePixel (index : Half) (p : StoredPixel) (s : State) :
    mapNext eraseSlow (storePixel index p s) = storePixel index p (eraseSlow s) := by
  have hwrite : (eraseSlow s).memWritePixel (pixelAddress index) p
      = (s.memWritePixel (pixelAddress index) p).map eraseSlow := by
    unfold State.memWritePixel
    rw [eraseSlow_storeSize]
    split <;> simp only [Except.map, eraseSlow_eq]
  unfold storePixel
  rw [eraseSlow_length, hwrite]
  split
  · cases s.memWritePixel (pixelAddress index) p <;> simp [Except.map, mapNext]
  · simp [mapNext]

theorem mapNext_eraseSlow_execGetPixelPacked (index : Half) (s : State) :
    mapNext eraseSlow (execGetPixelPacked index s) = execGetPixelPacked index (eraseSlow s) := by
  have hread : (eraseSlow s).memReadPixel (pixelAddress index) = s.memReadPixel (pixelAddress index) := by
    rw [eraseSlow_eq]
    rfl
  unfold execGetPixelPacked
  rw [eraseSlow_length, hread]
  split
  · cases s.memReadPixel (pixelAddress index) <;> simp [mapNext]
  · simp [mapNext]

theorem mapNext_eraseSlow_execActivate (s : State) :
    mapNext eraseSlow (execActivate s) = execActivate (eraseSlow s) := by
  unfold execActivate
  rw [enableEvents_eraseSlow]
  cases s.enableEvents <;> simp [mapNext]

theorem mapNext_eraseSlow_execTransmit (s : State) :
    mapNext eraseSlow (execTransmit s) = execTransmit (eraseSlow s) := by
  unfold execTransmit
  exact mapNext_eraseSlow_throughActiveBackend (by simp)

theorem mapNext_eraseSlow_execEmitLatch (s : State) :
    mapNext eraseSlow (execEmitLatch s) = execEmitLatch (eraseSlow s) := by
  unfold execEmitLatch
  exact mapNext_eraseSlow_throughActiveBackend (by simp)

/-- Clearing the slow bit after an instruction is clearing it before, in the state and in the operand (R105). -/
theorem mapNext_eraseSlow_exec (i : Instr) (s : State) :
    mapNext eraseSlow (exec i s) = exec i.clearSlow (eraseSlow s) := by
  cases i with
  | constructNative n =>
    simp [Instr.clearSlow, exec, execConstructNative, mapNext, eraseSlow_select, Backend.clearSlow]
  | constructPins n d c slow =>
    simp [Instr.clearSlow, exec, execConstructPins, mapNext, eraseSlow_select, Backend.clearSlow]
  | selectNative =>
    simp [Instr.clearSlow, exec, execSelectNative, mapNext, eraseSlow_select, Backend.clearSlow]
  | selectPins d c slow =>
    simp [Instr.clearSlow, exec, execSelectPins, mapNext, eraseSlow_select, Backend.clearSlow]
  | resize n => exact congrArg Host.Outcome.next (eraseSlow_newStore n s)
  | pack r g b => simp [Instr.clearSlow, exec_pack, mapNext]
  | latchLength n => simp [Instr.clearSlow, exec_latchLength, mapNext]
  | setPixel index r g b => exact mapNext_eraseSlow_storePixel index _ s
  | setPixelPacked index color => exact mapNext_eraseSlow_storePixel index _ s
  | getPixelPacked index => exact mapNext_eraseSlow_execGetPixelPacked index s
  | activate => exact mapNext_eraseSlow_execActivate s
  | transmit => exact mapNext_eraseSlow_execTransmit s
  | emitLatch => exact mapNext_eraseSlow_execEmitLatch s
  | colourByte x => exact mapNext_eraseSlow_throughActiveBackend (eraseSlow_emitByte _ s)
  | latchByte => exact mapNext_eraseSlow_throughActiveBackend (eraseSlow_emitByte _ s)

/-- Settles O52: both sides of the first clause are the cleared instruction at the cleared state; in the second, a selection
does not see the old slow bit either. -/
theorem slowVariantChangesNothing : Obligations.SlowVariantChangesNothing := by
  refine ⟨fun i s => ?_, fun s n d c slow => ⟨?_, ?_⟩⟩
  · rw [mapNext_eraseSlow_exec, mapNext_eraseSlow_exec, eraseSlow_eraseSlow]
  · calc mapNext eraseSlow (exec (.selectPins d c slow) s)
        = exec (.selectPins d c false) (eraseSlow s) := mapNext_eraseSlow_exec _ s
      _ = exec (.selectPins d c false) s := by simp only [exec, execSelectPins, select_eraseSlow]
  · calc mapNext eraseSlow (exec (.constructPins n d c slow) s)
        = exec (.constructPins n d c false) (eraseSlow s) := mapNext_eraseSlow_exec _ s
      _ = exec (.constructPins n d c false) s := by simp only [exec, execConstructPins, select_eraseSlow]

end Sys2Proof.Machine

/-! ACTIVATE issued again (R84, R153). What enables the backend depends on BACKEND, the parameters and whether FSM is
Uninitialized, and a successful ACTIVATE changes none of the three: so the second one appends what the first one did. -/

namespace Sys2Proof.Machine

/-- Everything a successful ACTIVATE that enables the backend by `evs` appends to WIRE: those events, then the initial
latch sequence (R84). -/
def State.activationEvents (s : State) (evs : List Event) : List Event :=
  evs ++ s.latchBytes.flatMap (byteEvents s.backend)

/-- The state after a successful ACTIVATE that enables the backend by `evs` (R84). -/
def State.activated (s : State) (evs : List Event) : State := (s.enable evs).emitLatchSequence.finish

theorem State.activated_wire (s : State) (evs : List Event) :
    (s.activated evs).wire = s.wire ++ s.activationEvents evs := by
  simp [State.activated, State.activationEvents]

theorem State.activationEvents_activated (s : State) (evs evs' : List Event) :
    (s.activated evs).activationEvents evs' = s.activationEvents evs' := rfl

/-- ACTIVATE on a backend that cannot be enabled completes as unavailable (R123). -/
theorem exec_activate_of_enableEvents_none {s : State} (h : s.enableEvents = none) :
    exec .activate s = .next (s.raise .backendUnavailable) := by
  rw [exec, execActivate, h]

/-- ACTIVATE on a backend that can be enabled completes as activated (R84). -/
theorem exec_activate_of_enableEvents_some {s : State} {evs : List Event} (h : s.enableEvents = some evs) :
    exec .activate s = .next (s.activated evs) := by
  rw [exec, execActivate, h, State.activated]

/-- A backend that could be enabled can be enabled again, by the same events: ACTIVATE is not idempotent (R153). -/
theorem State.enableEvents_activated {s : State} {evs : List Event} (h : s.enableEvents = some evs)
    (evs' : List Event) : (s.activated evs').enableEvents = some evs := by
  obtain ⟨hfsm, -⟩ := State.enableEvents_cases s evs h
  rw [← h, State.enableEvents, State.enableEvents, if_neg hfsm]
  rfl

/-- The initialisation of a backend clocks no bit (R84, R108). -/
theorem State.wireBits_enableEvents {s : State} {evs : List Event} (h : s.enableEvents = some evs) :
    wireBits evs = [] := by
  obtain ⟨-, ⟨-, -, rfl⟩ | ⟨d, c, -, -, rfl⟩⟩ := State.enableEvents_cases s evs h <;> rfl

/-- A backend that can be enabled is one of the two. -/
theorem State.backend_ne_none_of_enableEvents {s : State} {evs : List Event} (h : s.enableEvents = some evs) :
    s.backend ≠ .none := by
  obtain ⟨-, ⟨hb, -⟩ | ⟨d, c, slow, hb, -⟩⟩ := State.enableEvents_cases s evs h <;> simp [hb]

/-- ACTIVATE clocks exactly one latch sequence, in whole bytes. -/
theorem State.wireBytes_activationEvents {s : State} {evs : List Event} (h : s.enableEvents = some evs) :
    wireBytes (s.activationEvents evs) = s.latchBytes := by
  calc wireBytes (s.activationEvents evs)
      = bytesOfBits (wireBits evs ++ s.latchBytes.flatMap bitsMsbFirst) := by
        rw [wireBytes, wireBits, wireBits, State.activationEvents, wireBitsFrom_append,
          wireBitsFrom_flatMap_byteEvents _ _ _ (State.backend_ne_none_of_enableEvents h)]
    _ = s.latchBytes := by
        rw [State.wireBits_enableEvents h, List.nil_append, bytesOfBits_flatMap_bitsMsbFirst]

/-- ACTIVATE begins with the initialisation of one of the two backends. -/
theorem State.activationEvents_begin {s : State} {evs : List Event} (h : s.enableEvents = some evs) :
    (∃ rest, s.activationEvents evs = .nativeBegin :: .nativeSetClock s.cfg.nativeClockHz :: rest)
      ∨ ∃ d c rest, s.activationEvents evs = .pinsOutput d c :: rest := by
  obtain ⟨-, ⟨-, -, rfl⟩ | ⟨d, c, -, -, rfl⟩⟩ := State.enableEvents_cases s evs h
  · exact .inl ⟨_, rfl⟩
  · exact .inr ⟨d, c, _, rfl⟩

/-- Settles O37: the first ACTIVATE completed with OK, so it was available; then so is the second, and the two append the
same events. -/
theorem activateTwiceLatchesTwice : Obligations.ActivateTwiceLatchesTwice := by
  intro s t hnext hok
  cases henable : s.enableEvents with
  | none =>
    cases (exec_activate_of_enableEvents_none henable).symm.trans hnext
    cases hok
  | some evs =>
    cases (exec_activate_of_enableEvents_some henable).symm.trans hnext
    have hsecond : exec .activate (s.activated evs) = .next ((s.activated evs).activated evs) :=
      exec_activate_of_enableEvents_some (State.enableEvents_activated henable evs)
    have hwire : ((s.activated evs).activated evs).wire = (s.activated evs).wire ++ s.activationEvents evs := by
      rw [State.activated_wire, State.activationEvents_activated]
    exact ⟨_, s.activationEvents evs, hsecond, rfl, rfl, s.activated_wire evs, hwire,
      State.activationEvents_begin henable, State.wireBytes_activationEvents henable⟩

end Sys2Proof.Machine

/-! The command word and its fields (R60, R61). Encoding puts the operands side by side and the decoder takes them out
by position; conversely the used bits of any word are its fields put side by side. The round trip, the printed words and
the ignored bits all follow from these two readings of one layout. -/

namespace Sys2Proof

/-! ### A field taken out of a word put together -/

/-- The piece that has `z` below it begins at the width of `z`. -/
theorem extractLsb'_append_middle {u v w : Nat} (x : BitVec u) (y : BitVec v) (z : BitVec w) :
    (x ++ y ++ z).extractLsb' w v = y := by
  rw [BitVec.extractLsb'_append_eq_of_le (Nat.le_refl w), Nat.sub_self]
  exact BitVec.extractLsb'_append_eq_right

/-- The fields of formats L and I (R60). -/
theorem fields_lengthFormat (op : BitVec 4) (h : Half) (z : BitVec 44) :
    opcodeField (op ++ h ++ z) = op ∧ halfField (op ++ h ++ z) = h := by
  refine ⟨?_, extractLsb'_append_middle op h z⟩
  rw [opcodeField, BitVec.extractLsb'_append_eq_of_le (by decide)]
  exact BitVec.extractLsb'_append_eq_left

/-- The fields of formats LP and P (R60). -/
theorem fields_pinsFormat (op : BitVec 4) (h : Half) (d c : Byte) (slow : Bool) (z : BitVec 27) :
    opcodeField (op ++ h ++ d ++ c ++ BitVec.ofBool slow ++ z) = op
      ∧ halfField (op ++ h ++ d ++ c ++ BitVec.ofBool slow ++ z) = h
      ∧ firstByteField (op ++ h ++ d ++ c ++ BitVec.ofBool slow ++ z) = d
      ∧ secondByteField (op ++ h ++ d ++ c ++ BitVec.ofBool slow ++ z) = c
      ∧ slowField (op ++ h ++ d ++ c ++ BitVec.ofBool slow ++ z) = slow := by
  refine ⟨?_, ?_, ?_, ?_, ?_⟩
  · rw [opcodeField]
    repeat rw [BitVec.extractLsb'_append_eq_of_le (by decide)]
    exact BitVec.extractLsb'_eq_self
  · rw [halfField]
    iterate 3 rw [BitVec.extractLsb'_append_eq_of_le (by decide)]
    exact extractLsb'_append_middle op h d
  · rw [firstByteField]
    iterate 2 rw [BitVec.extractLsb'_append_eq_of_le (by decide)]
    exact extractLsb'_append_middle (op ++ h) d c
  · rw [secondByteField, BitVec.extractLsb'_append_eq_of_le (by decide)]
    exact extractLsb'_append_middle (op ++ h ++ d) c _
  · rw [slowField, BitVec.getLsbD_append, BitVec.getLsbD_append]
    simp

/-- The fields of formats IC and C (R60). -/
theorem fields_channelsFormat (op : BitVec 4) (h : Half) (r g b : Byte) (z : BitVec 20) :
    opcodeField (op ++ h ++ r ++ g ++ b ++ z) = op
      ∧ halfField (op ++ h ++ r ++ g ++ b ++ z) = h
      ∧ firstByteField (op ++ h ++ r ++ g ++ b ++ z) = r
      ∧ secondByteField (op ++ h ++ r ++ g ++ b ++ z) = g
      ∧ thirdByteField (op ++ h ++ r ++ g ++ b ++ z) = b := by
  refine ⟨?_, ?_, ?_, ?_, extractLsb'_append_middle (op ++ h ++ r ++ g) b z⟩
  · rw [opcodeField]
    repeat rw [BitVec.extractLsb'_append_eq_of_le (by decide)]
    exact BitVec.extractLsb'_eq_self
  · rw [halfField]
    iterate 3 rw [BitVec.extractLsb'_append_eq_of_le (by decide)]
    exact extractLsb'_append_middle op h r
  · rw [firstByteField]
    iterate 2 rw [BitVec.extractLsb'_append_eq_of_le (by decide)]
    exact extractLsb'_append_middle (op ++ h) r g
  · rw [secondByteField, BitVec.extractLsb'_append_eq_of_le (by decide)]
    exact extractLsb'_append_middle (op ++ h ++ r) g b

/-- The fields of format IW (R60). -/
theorem fields_colorFormat (op : BitVec 4) (h : Half) (color : Word) (z : BitVec 12) :
    opcodeField (op ++ h ++ color ++ z) = op
      ∧ halfField (op ++ h ++ color ++ z) = h
      ∧ colorField (op ++ h ++ color ++ z) = color := by
  refine ⟨?_, ?_, extractLsb'_append_middle (op ++ h) color z⟩
  · rw [opcodeField]
    repeat rw [BitVec.extractLsb'_append_eq_of_le (by decide)]
    exact BitVec.extractLsb'_eq_self
  · rw [halfField, BitVec.extractLsb'_append_eq_of_le (by decide)]
    exact extractLsb'_append_middle op h color

/-- The colour byte has bit 7 set and its intensity below (R51). -/
theorem decodeWireUnit_colourByteOf (x : BitVec 7) : decodeWireUnit (colourByteOf x) = .ok (.colourByte x) := by
  have hbit : (colourByteOf x).getLsbD 7 = true := by
    rw [colourByteOf, BitVec.getLsbD_append]
    simp
  have hlow : (colourByteOf x).extractLsb' 0 7 = x := BitVec.extractLsb'_append_eq_right
  rw [decodeWireUnit, if_pos hbit, hlow]

/-- The decoder undoes the encoder (R60, R61; D2). -/
theorem decode_encode (i : Instr) : decode (encode i) = .ok i := by
  cases i with
  | constructNative n => simp only [encode, decode, decodeCommand, fields_lengthFormat]; rfl
  | constructPins n d c slow => simp only [encode, decode, decodeCommand, fields_pinsFormat]; rfl
  | selectNative => rfl
  | selectPins d c slow => simp only [encode, decode, decodeCommand, fields_pinsFormat]; rfl
  | activate => rfl
  | setPixel index r g b => simp only [encode, decode, decodeCommand, fields_channelsFormat]; rfl
  | setPixelPacked index color => simp only [encode, decode, decodeCommand, fields_colorFormat]; rfl
  | getPixelPacked index => simp only [encode, decode, decodeCommand, fields_lengthFormat]; rfl
  | transmit => rfl
  | resize n => simp only [encode, decode, decodeCommand, fields_lengthFormat]; rfl
  | pack r g b => simp only [encode, decode, decodeCommand, fields_channelsFormat]; rfl
  | latchLength n => simp only [encode, decode, decodeCommand, fields_lengthFormat]; rfl
  | emitLatch => rfl
  | colourByte x => exact decodeWireUnit_colourByteOf x
  | latchByte => rfl

/-- Settles O1: every field comes back out of the place where the encoder put it. -/
theorem decodeInvertsEncode : Obligations.DecodeInvertsEncode :=
  fun i _ => decode_encode i

/-! ### A word read as its fields -/

/-- A single bit as a piece. -/
theorem ofBool_slowField (w : CommandWord) : BitVec.ofBool (slowField w) = w.extractLsb' 27 1 := by
  ext i hi
  obtain rfl : i = 0 := by omega
  simp [slowField]

theorem eq_fields_noneFormat (w : CommandWord) : opcodeField w ++ w.extractLsb' 0 60 = w :=
  BitVec.extractLsb'_append_extractLsb'

theorem eq_fields_lengthFormat (w : CommandWord) :
    opcodeField w ++ halfField w ++ w.extractLsb' 0 44 = w := by
  rw [opcodeField, halfField]
  repeat rw [BitVec.extractLsb'_append_extractLsb'_eq_extractLsb' (by decide)]
  exact BitVec.extractLsb'_eq_self

theorem eq_fields_pinsFormat (w : CommandWord) :
    opcodeField w ++ halfField w ++ firstByteField w ++ secondByteField w ++ BitVec.ofBool (slowField w)
      ++ w.extractLsb' 0 27 = w := by
  rw [opcodeField, halfField, firstByteField, secondByteField, ofBool_slowField]
  repeat rw [BitVec.extractLsb'_append_extractLsb'_eq_extractLsb' (by decide)]
  exact BitVec.extractLsb'_eq_self

theorem eq_fields_channelsFormat (w : CommandWord) :
    opcodeField w ++ halfField w ++ firstByteField w ++ secondByteField w ++ thirdByteField w
      ++ w.extractLsb' 0 20 = w := by
  rw [opcodeField, halfField, firstByteField, secondByteField, thirdByteField]
  repeat rw [BitVec.extractLsb'_append_extractLsb'_eq_extractLsb' (by decide)]
  exact BitVec.extractLsb'_eq_self

theorem eq_fields_colorFormat (w : CommandWord) :
    opcodeField w ++ halfField w ++ colorField w ++ w.extractLsb' 0 12 = w := by
  rw [opcodeField, halfField, colorField]
  repeat rw [BitVec.extractLsb'_append_extractLsb'_eq_extractLsb' (by decide)]
  exact BitVec.extractLsb'_eq_self

/-! ### The used bits of a word

For each format, the fields put side by side with the ignored bits 0 are the word under the mask of its used bits. -/

section
variable {w : CommandWord} {n : Nat}

theorem opcodeField_eq_ofNat (h : (opcodeField w).toNat = n) :
    BitVec.ofNat 4 n = opcodeField w := by
  rw [← h, BitVec.ofNat_toNat, BitVec.setWidth_eq]

theorem noneFormat_eq_and (h : (opcodeField w).toNat = n) : BitVec.ofNat 4 n ++ 0#60 = w &&& 0xF000000000000000#64 := by
  have hmask : 0xF000000000000000#64 = BitVec.allOnes 4 ++ 0#60 := by decide
  rw [opcodeField_eq_ofNat h]
  conv_rhs => rw [← eq_fields_noneFormat w, hmask, BitVec.and_append]
  simp only [BitVec.and_allOnes, BitVec.and_zero]

theorem lengthFormat_eq_and (h : (opcodeField w).toNat = n) :
    BitVec.ofNat 4 n ++ halfField w ++ 0#44 = w &&& 0xFFFFF00000000000#64 := by
  have hmask : 0xFFFFF00000000000#64 = BitVec.allOnes 4 ++ BitVec.allOnes 16 ++ 0#44 := by decide
  rw [opcodeField_eq_ofNat h]
  conv_rhs => rw [← eq_fields_lengthFormat w, hmask, BitVec.and_append]
  simp only [BitVec.and_append, BitVec.and_allOnes, BitVec.and_zero]

theorem lengthPinsFormat_eq_and (h : (opcodeField w).toNat = n) :
    BitVec.ofNat 4 n ++ halfField w ++ firstByteField w ++ secondByteField w ++ BitVec.ofBool (slowField w) ++ 0#27
      = w &&& 0xFFFFFFFFF8000000#64 := by
  have hmask : 0xFFFFFFFFF8000000#64
      = BitVec.allOnes 4 ++ BitVec.allOnes 16 ++ BitVec.allOnes 8 ++ BitVec.allOnes 8 ++ BitVec.allOnes 1 ++ 0#27 := by
    decide
  rw [opcodeField_eq_ofNat h]
  conv_rhs => rw [← eq_fields_pinsFormat w, hmask, BitVec.and_append]
  simp only [BitVec.and_append, BitVec.and_allOnes, BitVec.and_zero]

theorem pinsFormat_eq_and (h : (opcodeField w).toNat = n) :
    BitVec.ofNat 4 n ++ 0#16 ++ firstByteField w ++ secondByteField w ++ BitVec.ofBool (slowField w) ++ 0#27
      = w &&& 0xF0000FFFF8000000#64 := by
  have hmask : 0xF0000FFFF8000000#64
      = BitVec.allOnes 4 ++ 0#16 ++ BitVec.allOnes 8 ++ BitVec.allOnes 8 ++ BitVec.allOnes 1 ++ 0#27 := by
    decide
  rw [opcodeField_eq_ofNat h]
  conv_rhs => rw [← eq_fields_pinsFormat w, hmask, BitVec.and_append]
  simp only [BitVec.and_append, BitVec.and_allOnes, BitVec.and_zero]

theorem indexChannelsFormat_eq_and (h : (opcodeField w).toNat = n) :
    BitVec.ofNat 4 n ++ halfField w ++ firstByteField w ++ secondByteField w ++ thirdByteField w ++ 0#20
      = w &&& 0xFFFFFFFFFFF00000#64 := by
  have hmask : 0xFFFFFFFFFFF00000#64
      = BitVec.allOnes 4 ++ BitVec.allOnes 16 ++ BitVec.allOnes 8 ++ BitVec.allOnes 8 ++ BitVec.allOnes 8 ++ 0#20 := by
    decide
  rw [opcodeField_eq_ofNat h]
  conv_rhs => rw [← eq_fields_channelsFormat w, hmask, BitVec.and_append]
  simp only [BitVec.and_append, BitVec.and_allOnes, BitVec.and_zero]

theorem channelsFormat_eq_and (h : (opcodeField w).toNat = n) :
    BitVec.ofNat 4 n ++ 0#16 ++ firstByteField w ++ secondByteField w ++ thirdByteField w ++ 0#20
      = w &&& 0xF0000FFFFFF00000#64 := by
  have hmask : 0xF0000FFFFFF00000#64
      = BitVec.allOnes 4 ++ 0#16 ++ BitVec.allOnes 8 ++ BitVec.allOnes 8 ++ BitVec.allOnes 8 ++ 0#20 := by
    decide
  rw [opcodeField_eq_ofNat h]
  conv_rhs => rw [← eq_fields_channelsFormat w, hmask, BitVec.and_append]
  simp only [BitVec.and_append, BitVec.and_allOnes, BitVec.and_zero]

theorem colorFormat_eq_and (h : (opcodeField w).toNat = n) :
    BitVec.ofNat 4 n ++ halfField w ++ colorField w ++ 0#12 = w &&& 0xFFFFFFFFFFFFF000#64 := by
  have hmask : 0xFFFFFFFFFFFFF000#64 = BitVec.allOnes 4 ++ BitVec.allOnes 16 ++ BitVec.allOnes 32 ++ 0#12 := by decide
  rw [opcodeField_eq_ofNat h]
  conv_rhs => rw [← eq_fields_colorFormat w, hmask, BitVec.and_append]
  simp only [BitVec.and_append, BitVec.and_allOnes, BitVec.and_zero]

end

/-- A word with an assigned opcode names an instruction, whose encoding is the word with its ignored bits cleared. -/
theorem exists_decodeCommand_encode {w mask : CommandWord} (h : usedBits (opcodeField w).toNat = some mask) :
    ∃ i, decodeCommand w = .ok i ∧ encode i = .command (w &&& mask) := by
  unfold usedBits at h
  split at h <;> cases h <;> rename_i hop
  · exact ⟨.constructNative (halfField w),
      by simp only [decodeCommand, hop], congrArg Presented.command (lengthFormat_eq_and hop)⟩
  · exact ⟨.constructPins (halfField w) (firstByteField w) (secondByteField w) (slowField w),
      by simp only [decodeCommand, hop], congrArg Presented.command (lengthPinsFormat_eq_and hop)⟩
  · exact ⟨.selectNative, by simp only [decodeCommand, hop], congrArg Presented.command (noneFormat_eq_and hop)⟩
  · exact ⟨.selectPins (firstByteField w) (secondByteField w) (slowField w),
      by simp only [decodeCommand, hop], congrArg Presented.command (pinsFormat_eq_and hop)⟩
  · exact ⟨.activate, by simp only [decodeCommand, hop], congrArg Presented.command (noneFormat_eq_and hop)⟩
  · exact ⟨.setPixel (halfField w) (firstByteField w) (secondByteField w) (thirdByteField w),
      by simp only [decodeCommand, hop], congrArg Presented.command (indexChannelsFormat_eq_and hop)⟩
  · exact ⟨.setPixelPacked (halfField w) (colorField w),
      by simp only [decodeCommand, hop], congrArg Presented.command (colorFormat_eq_and hop)⟩
  · exact ⟨.getPixelPacked (halfField w),
      by simp only [decodeCommand, hop], congrArg Presented.command (lengthFormat_eq_and hop)⟩
  · exact ⟨.transmit, by simp only [decodeCommand, hop], congrArg Presented.command (noneFormat_eq_and hop)⟩
  · exact ⟨.resize (halfField w),
      by simp only [decodeCommand, hop], congrArg Presented.command (lengthFormat_eq_and hop)⟩
  · exact ⟨.pack (firstByteField w) (secondByteField w) (thirdByteField w),
      by simp only [decodeCommand, hop], congrArg Presented.command (channelsFormat_eq_and hop)⟩
  · exact ⟨.latchLength (halfField w),
      by simp only [decodeCommand, hop], congrArg Presented.command (lengthFormat_eq_and hop)⟩
  · exact ⟨.emitLatch, by simp only [decodeCommand, hop], congrArg Presented.command (noneFormat_eq_and hop)⟩

/-- Settles O3: the word and its masked form both name the instruction that the masked form is the encoding of. -/
theorem ignoredBitsDoNotAffectDecoding : Obligations.IgnoredBitsDoNotAffectDecoding := by
  intro w mask h
  obtain ⟨i, hdecode, hencode⟩ := exists_decodeCommand_encode h
  have hmasked : decode (.command (w &&& mask)) = .ok i := hencode ▸ decode_encode i
  exact hdecode.trans hmasked.symm

/-! ### The printed units -/

/-- A word none of whose bits is ignored is its own masked form. -/
theorem and_mask_of_ignored_zero {w mask : CommandWord} (h : w &&& ~~~mask = 0#64) : w &&& mask = w := by
  calc w &&& mask = (w &&& mask) ||| (w &&& ~~~mask) := by rw [h, BitVec.or_zero]
    _ = w := by rw [← BitVec.and_or_distrib_left, BitVec.or_not_self, BitVec.and_allOnes]

/-- A byte with bit 7 set is the colour byte of its low seven bits (R51). -/
theorem colourByteOf_extractLsb' {b : Byte} (h : b.getLsbD 7 = true) : colourByteOf (b.extractLsb' 0 7) = b := by
  have htop : b.extractLsb' 7 1 = 1#1 := by
    ext i hi
    obtain rfl : i = 0 := by omega
    simpa using h
  rw [colourByteOf, ← htop]
  exact BitVec.extractLsb'_append_extractLsb'

/-- Settles O2: a printed word is its own masked form, and the two wire bytes are what the encoder writes. -/
theorem encodeInvertsDecodeOnPrintedWords : Obligations.EncodeInvertsDecodeOnPrintedWords := by
  intro p hp
  cases p with
  | command w =>
    simp only [Presented.wellFormed] at hp
    split at hp
    · rename_i mask hmask
      obtain ⟨i, hdecode, hencode⟩ := exists_decodeCommand_encode hmask
      exact ⟨i, hdecode, by rw [hencode, and_mask_of_ignored_zero (by simpa using hp)]⟩
    · cases hp
  | wireUnit b =>
    by_cases hbit : b.getLsbD 7 = true
    · refine ⟨.colourByte (b.extractLsb' 0 7), if_pos hbit, ?_⟩
      rw [encode, colourByteOf_extractLsb' hbit]
    · have hor : b = 0#8 ∨ b.getLsbD 7 = true := by
        simpa only [Presented.wellFormed, Bool.or_eq_true, beq_iff_eq] using hp
      obtain rfl : b = 0#8 := hor.resolve_right hbit
      exact ⟨.latchByte, rfl, rfl⟩

/-- Settles O5: the decoder tests bit 7, then 0x00, and the three kinds of byte exclude each other. -/
theorem wireUnitsAreToldApartByBitSeven : Obligations.WireUnitsAreToldApartByBitSeven := by
  intro b
  refine ⟨fun hset => if_pos hset, fun hzero => ?_, fun hclear hne => ?_⟩
  · rw [hzero]
    rfl
  · rw [decode, decodeWireUnit, if_neg (by rw [hclear]; decide), if_neg hne]

/-- Settles O6: the six units are closed, so the decoder evaluates on them. -/
theorem writtenWordsDecode : Obligations.WrittenWordsDecode := by
  unfold Obligations.WrittenWordsDecode
  decide

end Sys2Proof

/-! What a step does between commands (R37, R135, R141): it waits, or takes the head of the port and executes or refuses
it. -/

namespace Sys2Proof.Machine

section
variable {s : State} (hidle : s.running = none)
include hidle

theorem step_of_port_nil (hport : s.port = []) : step s = .next s := by
  simp only [step, hidle, State.takeCommand, hport]

theorem step_of_port_cons {p : Presented} {rest : List Presented} (hport : s.port = p :: rest) :
    step s = State.accept p { s with port := rest } := by
  simp only [step, hidle, State.takeCommand, hport]

end

theorem State.accept_of_decode_ok {p : Presented} {i : Instr} (s : State) (h : decode p = .ok i) :
    s.accept p = exec i s := by
  simp only [State.accept, h]

theorem State.accept_of_decode_error {p : Presented} {e : DecodeError} (s : State) (h : decode p = .error e) :
    s.accept p = .refused (refusalOf e) := by
  simp only [State.accept, h]

/-- Settles O7: the head of the port is accepted, and an accepted unit is executed as what it decodes to. -/
theorem stepRunsTheDecodedInstruction : Obligations.StepRunsTheDecodedInstruction := by
  intro s p rest i hidle hport hdecode _
  rw [step_of_port_cons hidle hport, State.accept_of_decode_ok _ hdecode]

/-- Settles O8: an idle step looks at the port alone. -/
theorem blockWaitsForACommand : Obligations.BlockWaitsForACommand :=
  fun _ hidle hport => step_of_port_nil hidle hport

/-! ### The reserved opcodes (R63) -/

/-- The opcodes to which the spec gives no format are the reserved ones. -/
theorem usedBits_eq_none_iff (op : BitVec 4) : usedBits op.toNat = none ↔ op = 0#4 ∨ op = 14#4 ∨ op = 15#4 := by
  decide +revert

theorem decode_command_of_usedBits_none {w : CommandWord} (h : usedBits (opcodeField w).toNat = none) :
    decode (.command w) = .error (.reservedOpcode (opcodeField w)) := by
  obtain hop | hop | hop := (usedBits_eq_none_iff _).mp h <;> rw [decode, decodeCommand, hop] <;> rfl

/-- Settles O4: a word with an assigned opcode decodes, a word without one does not, and the decoder's error is the
step's refusal. -/
theorem reservedOpcodesAreRefused : Obligations.ReservedOpcodesAreRefused := by
  intro w
  simp only [← usedBits_eq_none_iff]
  refine ⟨⟨fun ⟨e, herror⟩ => ?_, fun hnone => ⟨_, decode_command_of_usedBits_none hnone⟩⟩, ?_⟩
  · cases hbits : usedBits (opcodeField w).toNat with
    | none => rfl
    | some mask =>
      obtain ⟨i, hok, -⟩ := exists_decodeCommand_encode hbits
      cases hok.symm.trans herror
  · intro s rest hidle hport hnone
    rw [step_of_port_cons hidle hport, State.accept_of_decode_error _ (decode_command_of_usedBits_none hnone),
      refusalOf]

end Sys2Proof.Machine

/-! What an instruction can do. The fields that selection, allocation and the sending commands leave alone, one lemma
each; then one inversion lemma for `exec`, from which the statements about every instruction are derived. -/

namespace Sys2Proof.Machine

/-! ### select -/

@[simp] theorem State.select_fsm (k : Backend) (s : State) : (s.select k).fsm = .configured := rfl
@[simp] theorem State.select_backend (k : Backend) (s : State) : (s.select k).backend = k := rfl

section
variable (k : Backend) (s : State)

/-- Selection changes FSM, BACKEND, WIRE, the lines and the count of free values, and nothing else (R82). -/
theorem State.select_frame :
    s.select k = { s with
      fsm := .configured, backend := k
      wire := (s.select k).wire, lines := (s.select k).lines, freeCount := (s.select k).freeCount } := by
  obtain ⟨-, h⟩ | ⟨-, -, h⟩ | ⟨-, d, c, slow, -, h⟩ := State.select_cases k s <;> rw [h] <;> rfl

@[simp] theorem State.select_length : (s.select k).length = s.length := by rw [State.select_frame]
@[simp] theorem State.select_pix : (s.select k).pix = s.pix := by rw [State.select_frame]
@[simp] theorem State.select_txc : (s.select k).txc = s.txc := by rw [State.select_frame]
@[simp] theorem State.select_settleRunning : (s.select k).settleRunning = s.settleRunning := by rw [State.select_frame]
@[simp] theorem State.select_running : (s.select k).running = s.running := by rw [State.select_frame]
@[simp] theorem State.select_port : (s.select k).port = s.port := by rw [State.select_frame]
@[simp] theorem State.select_cfg : (s.select k).cfg = s.cfg := by rw [State.select_frame]

end

/-! ### newStore -/

section
variable (n : Half) (s : State)

/-- Allocation changes LENGTH, PIX and the response, and nothing else (R70, R74). -/
theorem State.newStore_frame :
    s.newStore n = { s with
      length := (s.newStore n).length, pix := (s.newStore n).pix, status := (s.newStore n).status, result := 0 } := by
  obtain ⟨-, h⟩ | ⟨-, h⟩ := State.newStore_cases n s <;> rw [h]

@[simp] theorem State.newStore_fsm : (s.newStore n).fsm = s.fsm := by rw [State.newStore_frame]
@[simp] theorem State.newStore_backend : (s.newStore n).backend = s.backend := by rw [State.newStore_frame]
@[simp] theorem State.newStore_txc : (s.newStore n).txc = s.txc := by rw [State.newStore_frame]
@[simp] theorem State.newStore_result : (s.newStore n).result = 0 := by rw [State.newStore_frame]
@[simp] theorem State.newStore_lines : (s.newStore n).lines = s.lines := by rw [State.newStore_frame]
@[simp] theorem State.newStore_settleRunning : (s.newStore n).settleRunning = s.settleRunning := by
  rw [State.newStore_frame]
@[simp] theorem State.newStore_wire : (s.newStore n).wire = s.wire := by rw [State.newStore_frame]
@[simp] theorem State.newStore_port : (s.newStore n).port = s.port := by rw [State.newStore_frame]
@[simp] theorem State.newStore_running : (s.newStore n).running = s.running := by rw [State.newStore_frame]
@[simp] theorem State.newStore_cfg : (s.newStore n).cfg = s.cfg := by rw [State.newStore_frame]

/-- Allocation answers OK or AllocationFailure (R121). -/
theorem State.newStore_status_ne_backendUnavailable : (s.newStore n).status ≠ .backendUnavailable := by
  obtain ⟨-, h⟩ | ⟨-, h⟩ := State.newStore_cases n s <;> simp [h]

end

/-! ### Sending -/

/-- FSM is Active on one of the two backends: what an instruction needs in order to send (R85, R87, R100, R101). -/
def State.Ready (s : State) : Prop := s.fsm = .active ∧ s.backend ≠ .none

theorem State.throughActiveBackend_of_ready {s : State} (send : State → State) (h : s.Ready) :
    s.throughActiveBackend send = .next (send s) := by
  obtain ⟨-, -, hnext⟩ | ⟨-, hnone, -⟩ | ⟨hfsm, -⟩ := State.throughActiveBackend_cases send s
  · exact hnext
  · exact absurd hnone h.2
  · exact absurd h.1 hfsm

theorem State.throughActiveBackend_of_not_ready {s : State} (send : State → State) (h : ¬s.Ready) :
    ∃ r, s.throughActiveBackend send = .refused r := by
  obtain ⟨hfsm, hback, -⟩ | ⟨-, -, hrefused⟩ | ⟨-, hrefused⟩ := State.throughActiveBackend_cases send s
  · exact absurd ⟨hfsm, hback⟩ h
  · exact ⟨_, hrefused⟩
  · exact ⟨_, hrefused⟩

/-- What goes through the active backend and answers a state has been ready and has sent. -/
theorem eq_send_of_throughActiveBackend {s t : State} {send : State → State}
    (h : s.throughActiveBackend send = .next t) : s.Ready ∧ t = send s := by
  by_cases hready : s.Ready
  · cases (State.throughActiveBackend_of_ready send hready).symm.trans h
    exact ⟨hready, rfl⟩
  · obtain ⟨r, hrefused⟩ := State.throughActiveBackend_of_not_ready send hready
    cases hrefused.symm.trans h

/-- The state after TRANSMIT (R85). -/
def State.transmitted (s : State) : State := (s.emitBytes s.colourBytes).emitLatchSequence.settleDelay.finish

/-- The state after EMIT_LATCH (R87). -/
def State.latched (s : State) : State := s.emitLatchSequence.finish

/-! ### The states after ACTIVATE, TRANSMIT and EMIT_LATCH -/

section
variable (s : State) (evs : List Event)

@[simp] theorem State.activated_fsm : (s.activated evs).fsm = .active := by simp [State.activated]
@[simp] theorem State.activated_backend : (s.activated evs).backend = s.backend := by simp [State.activated]
@[simp] theorem State.activated_length : (s.activated evs).length = s.length := by simp [State.activated]
@[simp] theorem State.activated_pix : (s.activated evs).pix = s.pix := by simp [State.activated]
@[simp] theorem State.activated_port : (s.activated evs).port = s.port := by simp [State.activated]
@[simp] theorem State.activated_cfg : (s.activated evs).cfg = s.cfg := by simp [State.activated]

@[simp] theorem State.transmitted_fsm : s.transmitted.fsm = s.fsm := by simp [State.transmitted]
@[simp] theorem State.transmitted_backend : s.transmitted.backend = s.backend := by simp [State.transmitted]
@[simp] theorem State.transmitted_length : s.transmitted.length = s.length := by simp [State.transmitted]
@[simp] theorem State.transmitted_pix : s.transmitted.pix = s.pix := by simp [State.transmitted]
@[simp] theorem State.transmitted_port : s.transmitted.port = s.port := by simp [State.transmitted]
@[simp] theorem State.transmitted_cfg : s.transmitted.cfg = s.cfg := by simp [State.transmitted]

@[simp] theorem State.latched_fsm : s.latched.fsm = s.fsm := by simp [State.latched]
@[simp] theorem State.latched_backend : s.latched.backend = s.backend := by simp [State.latched]
@[simp] theorem State.latched_length : s.latched.length = s.length := by simp [State.latched]
@[simp] theorem State.latched_pix : s.latched.pix = s.pix := by simp [State.latched]
@[simp] theorem State.latched_port : s.latched.port = s.port := by simp [State.latched]
@[simp] theorem State.latched_cfg : s.latched.cfg = s.cfg := by simp [State.latched]

end

/-! ### The four sending instructions -/

theorem exec_transmit_of_ready {s : State} (h : s.Ready) : exec .transmit s = .next s.transmitted := by
  rw [exec, execTransmit, State.throughActiveBackend_of_ready _ h, State.transmitted]

theorem exec_emitLatch_of_ready {s : State} (h : s.Ready) : exec .emitLatch s = .next s.latched := by
  rw [exec, execEmitLatch, State.throughActiveBackend_of_ready _ h, State.latched]

theorem exec_colourByte_of_ready {s : State} (x : BitVec 7) (h : s.Ready) :
    exec (.colourByte x) s = .next (s.emitByte (colourByteOf x)) := by
  rw [exec, execColourByte, State.throughActiveBackend_of_ready _ h]

theorem exec_latchByte_of_ready {s : State} (h : s.Ready) : exec .latchByte s = .next (s.emitByte 0x00#8) := by
  rw [exec, execLatchByte, State.throughActiveBackend_of_ready _ h]

/-- Whatever sends is refused unless a backend is active (R85, R87, D9). -/
theorem exec_refused_of_not_ready {i : Instr} {s : State} (hi : needsActive i = true) (h : ¬s.Ready) :
    ∃ r, exec i s = .refused r := by
  cases i
  case transmit =>
    rw [exec, execTransmit]
    exact State.throughActiveBackend_of_not_ready _ h
  case emitLatch =>
    rw [exec, execEmitLatch]
    exact State.throughActiveBackend_of_not_ready _ h
  case colourByte x => exact State.throughActiveBackend_of_not_ready _ h
  case latchByte => exact State.throughActiveBackend_of_not_ready _ h
  all_goals cases hi

/-! ### The effect of an instruction -/

/-- What a pixel write does: nothing but complete, or a marked pixel written inside the store (R71, R72). -/
def PixelWritten (s t : State) : Prop :=
  t = s.complete .ok 0
    ∨ ∃ addr p u, StoredPixel.Marked p ∧ s.memWritePixel addr p = .ok u ∧ t = u.complete .ok 0

/-- `Effect s i t`: what `i` can have done from `s` when it ends in `t`, one constructor per kind of effect. -/
inductive Effect (s : State) (i : Instr) : State → Prop
  | respond (w : Word)
      (hi : (∃ index, i = .getPixelPacked index) ∨ (∃ r g b, i = .pack r g b) ∨ ∃ n, i = .latchLength n) :
      Effect s i (s.complete .ok w)
  | write {t : State} (hi : (∃ index r g b, i = .setPixel index r g b) ∨ ∃ index color, i = .setPixelPacked index color)
      (hwrite : PixelWritten s t) : Effect s i t
  | resize (n : Half) (hi : i = .resize n) : Effect s i (s.newStore n)
  | construct (k : Backend) (n : Half)
      (hi : i = .constructNative n ∧ k = .native
        ∨ ∃ d c slow, i = .constructPins n d c slow ∧ k = .manual d c slow) :
      Effect s i ((s.select k).newStore n)
  | select (k : Backend)
      (hi : i = .selectNative ∧ k = .native ∨ ∃ d c slow, i = .selectPins d c slow ∧ k = .manual d c slow) :
      Effect s i ((s.select k).complete .ok 0)
  | unavailable (hi : i = .activate) (h : s.enableEvents = none) : Effect s i (s.raise .backendUnavailable)
  | activate (evs : List Event) (hi : i = .activate) (h : s.enableEvents = some evs) : Effect s i (s.activated evs)
  | transmit (hi : i = .transmit) (h : s.Ready) : Effect s i s.transmitted
  | emitLatch (hi : i = .emitLatch) (h : s.Ready) : Effect s i s.latched
  | wireUnit (b : Byte) (hi : (∃ x, i = .colourByte x ∧ b = colourByteOf x) ∨ (i = .latchByte ∧ b = 0x00#8))
      (h : s.Ready) : Effect s i (s.emitByte b)

theorem exists_storePixel_pixelWritten (index : Half) {p : StoredPixel} (hp : p.Marked) (s : State) :
    ∃ t, storePixel index p s = .next t ∧ PixelWritten s t := by
  obtain ⟨-, u, hu, hnext⟩ | ⟨-, hnext⟩ := storePixel_cases index p s
  · exact ⟨_, hnext, .inr ⟨_, p, u, hp, hu, rfl⟩⟩
  · exact ⟨_, hnext, .inl rfl⟩

/-- Every instruction has its effect or, if it sends and no backend is active, is refused; none faults. -/
theorem exec_cases (i : Instr) (s : State) :
    (∃ t, exec i s = .next t ∧ Effect s i t)
      ∨ (needsActive i = true ∧ ¬s.Ready ∧ ∃ r, exec i s = .refused r) := by
  by_cases hsend : needsActive i = true ∧ ¬s.Ready
  · exact .inr ⟨hsend.1, hsend.2, exec_refused_of_not_ready hsend.1 hsend.2⟩
  left
  have hready (hi : needsActive i = true) : s.Ready := not_not.mp fun h => hsend ⟨hi, h⟩
  cases i with
  | constructNative n => exact ⟨_, rfl, .construct _ n (.inl ⟨rfl, rfl⟩)⟩
  | constructPins n d c slow => exact ⟨_, rfl, .construct _ n (.inr ⟨d, c, slow, rfl, rfl⟩)⟩
  | selectNative => exact ⟨_, rfl, .select _ (.inl ⟨rfl, rfl⟩)⟩
  | selectPins d c slow => exact ⟨_, rfl, .select _ (.inr ⟨d, c, slow, rfl, rfl⟩)⟩
  | activate =>
    cases h : s.enableEvents with
    | none => exact ⟨_, exec_activate_of_enableEvents_none h, .unavailable rfl h⟩
    | some evs => exact ⟨_, exec_activate_of_enableEvents_some h, .activate evs rfl h⟩
  | setPixel index r g b =>
    obtain ⟨t, hnext, hwrite⟩ := exists_storePixel_pixelWritten index (StoredPixel.marked_markByte g r b) s
    exact ⟨t, hnext, .write (.inl ⟨index, r, g, b, rfl⟩) hwrite⟩
  | setPixelPacked index color =>
    obtain ⟨t, hnext, hwrite⟩ := exists_storePixel_pixelWritten index
      (StoredPixel.marked_markByte (greenByteOf color) (redByteOf color) (blueByteOf color)) s
    exact ⟨t, hnext, .write (.inr ⟨index, color, rfl⟩) hwrite⟩
  | getPixelPacked index =>
    by_cases hin : index < s.length
    · obtain ⟨p, -, hnext⟩ := execGetPixelPacked_of_lt_length hin
      exact ⟨_, hnext, .respond _ (.inl ⟨index, rfl⟩)⟩
    · exact ⟨_, execGetPixelPacked_of_not_lt_length hin, .respond _ (.inl ⟨index, rfl⟩)⟩
  | transmit => exact ⟨_, exec_transmit_of_ready (hready rfl), .transmit rfl (hready rfl)⟩
  | resize n => exact ⟨_, rfl, .resize n rfl⟩
  | pack r g b => exact ⟨_, rfl, .respond _ (.inr (.inl ⟨r, g, b, rfl⟩))⟩
  | latchLength n => exact ⟨_, rfl, .respond _ (.inr (.inr ⟨n, rfl⟩))⟩
  | emitLatch => exact ⟨_, exec_emitLatch_of_ready (hready rfl), .emitLatch rfl (hready rfl)⟩
  | colourByte x => exact ⟨_, exec_colourByte_of_ready x (hready rfl), .wireUnit _ (.inl ⟨x, rfl, rfl⟩) (hready rfl)⟩
  | latchByte => exact ⟨_, exec_latchByte_of_ready (hready rfl), .wireUnit _ (.inr ⟨rfl, rfl⟩) (hready rfl)⟩

/-- An instruction that ends in a state has had its effect. -/
theorem effect_of_exec {i : Instr} {s t : State} (h : exec i s = .next t) : Effect s i t := by
  obtain ⟨u, hnext, heffect⟩ | ⟨-, -, r, hrefused⟩ := exec_cases i s
  · cases hnext.symm.trans h
    exact heffect
  · cases hrefused.symm.trans h

end Sys2Proof.Machine

/-! The transmitter's state, the responses and the refusals of every instruction (R11, R19, R89, R120), read off its
effect. -/

namespace Sys2Proof.Machine

/-- A pixel write changes PIX and the response, and nothing else (R71, R72). -/
theorem PixelWritten.frame {s t : State} (h : PixelWritten s t) :
    t = { s with pix := t.pix, status := .ok, result := 0 } := by
  obtain rfl | ⟨addr, p, u, -, hu, rfl⟩ := h
  · rfl
  · obtain ⟨-, hframe, -⟩ := State.memWritePixel_spec s u addr p hu
    rw [hframe]
    rfl

/-! ### Where it leads -/

/-- ACTIVATE is available exactly when there are events that enable the backend (R84, R123). -/
theorem activationAvailable_eq_isSome (s : State) : activationAvailable s = s.enableEvents.isSome := by
  unfold activationAvailable State.enableEvents
  by_cases hfsm : s.fsm = .uninitialized
  · simp [hfsm]
  · cases hb : s.backend with
    | none => simp [hfsm]
    | native => cases s.cfg.nativePresent <;> simp [hfsm]
    | manual d c slow => simp [hfsm]

theorem activationAvailable_of_some {s : State} {evs : List Event} (h : s.enableEvents = some evs) :
    activationAvailable s = true := by
  rw [activationAvailable_eq_isSome, h, Option.isSome_some]

theorem activationAvailable_of_none {s : State} (h : s.enableEvents = none) : activationAvailable s = false := by
  rw [activationAvailable_eq_isSome, h, Option.isSome_none]

theorem nextFsm_activate (s : State) :
    nextFsm .activate s = if activationAvailable s then .active else s.fsm := rfl

/-- The table of R89 holds of every effect. -/
theorem Effect.fsm_eq {s t : State} {i : Instr} (h : Effect s i t) : t.fsm = nextFsm i s := by
  cases h with
  | respond w hi => obtain ⟨_, rfl⟩ | ⟨_, _, _, rfl⟩ | ⟨_, rfl⟩ := hi <;> rfl
  | write hi hwrite =>
    rw [hwrite.frame]
    obtain ⟨_, _, _, _, rfl⟩ | ⟨_, _, rfl⟩ := hi <;> rfl
  | resize n hi =>
    subst hi
    exact State.newStore_fsm n s
  | construct k n hi =>
    rw [State.newStore_fsm, State.select_fsm]
    obtain ⟨rfl, -⟩ | ⟨_, _, _, rfl, -⟩ := hi <;> rfl
  | select k hi => obtain ⟨rfl, -⟩ | ⟨_, _, _, rfl, -⟩ := hi <;> rfl
  | unavailable hi hnone => simp [hi, nextFsm_activate, activationAvailable_of_none hnone]
  | activate evs hi hsome => simp [hi, nextFsm_activate, activationAvailable_of_some hsome]
  | transmit hi =>
    subst hi
    exact s.transmitted_fsm
  | emitLatch hi =>
    subst hi
    exact s.latched_fsm
  | wireUnit b hi => obtain ⟨_, rfl, -⟩ | ⟨rfl, -⟩ := hi <;> rfl

/-- An instruction that sends has run only from Active on a backend (R85, R87, D9). -/
theorem Effect.ready {s t : State} {i : Instr} (h : Effect s i t) (hi' : needsActive i = true) : s.Ready := by
  cases h with
  | respond w hi => obtain ⟨_, rfl⟩ | ⟨_, _, _, rfl⟩ | ⟨_, rfl⟩ := hi <;> cases hi'
  | write hi => obtain ⟨_, _, _, _, rfl⟩ | ⟨_, _, rfl⟩ := hi <;> cases hi'
  | resize n hi => subst hi; cases hi'
  | construct k n hi => obtain ⟨rfl, -⟩ | ⟨_, _, _, rfl, -⟩ := hi <;> cases hi'
  | select k hi => obtain ⟨rfl, -⟩ | ⟨_, _, _, rfl, -⟩ := hi <;> cases hi'
  | unavailable hi => subst hi; cases hi'
  | activate evs hi => subst hi; cases hi'
  | transmit hi hready => exact hready
  | emitLatch hi hready => exact hready
  | wireUnit b hi hready => exact hready

/-- The states that R89's table names, beside the one it starts from: none is Uninitialized. -/
theorem nextFsm_cases (i : Instr) (s : State) :
    nextFsm i s = .configured ∨ nextFsm i s = .active ∨ nextFsm i s = s.fsm := by
  cases i
  case constructNative | constructPins | selectNative | selectPins => exact .inl rfl
  case activate =>
    right
    rw [nextFsm_activate]
    split
    · exact .inl rfl
    · exact .inr rfl
  all_goals exact .inr (.inr rfl)

/-- Settles O41: the effect of an instruction leads where R89's table says, and that table has no way back. -/
theorem transmitterStateTable : Obligations.TransmitterStateTable := by
  intro i s t hnext
  have heffect : Effect s i t := effect_of_exec hnext
  refine ⟨heffect.fsm_eq, fun hi => (heffect.ready hi).1, fun ht => ?_⟩
  have hnextFsm : nextFsm i s = .uninitialized := heffect.fsm_eq.symm.trans ht
  obtain h | h | h := nextFsm_cases i s
  · cases h.symm.trans hnextFsm
  · cases h.symm.trans hnextFsm
  · exact h.symm.trans hnextFsm

/-! ### Faults and refusals -/

theorem exec_ne_fault (i : Instr) (s : State) (f : Fault) : exec i s ≠ .fault f := by
  obtain ⟨t, hnext, -⟩ | ⟨-, -, r, hrefused⟩ := exec_cases i s
  · simp [hnext]
  · simp [hrefused]

theorem State.accept_ne_fault (p : Presented) (s : State) (f : Fault) : s.accept p ≠ .fault f := by
  cases hdecode : decode p with
  | ok i =>
    rw [State.accept_of_decode_ok s hdecode]
    exact exec_ne_fault i s f
  | error e => simp [State.accept_of_decode_error s hdecode]

/-- Settles O43: a step moves the cursor, waits, or accepts a unit, and accepting is `exec` or a refusal. -/
theorem nothingFaults : Obligations.NothingFaults := by
  refine ⟨exec_ne_fault, fun s f => ?_⟩
  cases hrun : s.running with
  | some c => simp [step, hrun]
  | none =>
    cases hport : s.port with
    | nil => simp [step_of_port_nil hrun hport]
    | cons p rest =>
      rw [step_of_port_cons hrun hport]
      exact State.accept_ne_fault p _ f

/-- Settles O44: an instruction that sends is refused without an active backend, and whatever has an effect is not. -/
theorem onlySendingWithoutAnActiveBackendIsRefused : Obligations.OnlySendingWithoutAnActiveBackendIsRefused := by
  intro i s
  have hnot : (s.fsm ≠ .active ∨ s.backend = .none) ↔ ¬s.Ready := by
    simp only [State.Ready, not_and_or, ne_eq, not_not]
  rw [hnot]
  obtain ⟨t, hnext, heffect⟩ | ⟨hi, hready, hrefused⟩ := exec_cases i s
  · refine ⟨fun ⟨r, hr⟩ => ?_, fun ⟨hi, hready⟩ => absurd (heffect.ready hi) hready⟩
    cases hnext.symm.trans hr
  · exact ⟨fun _ => ⟨hi, hready⟩, fun _ => hrefused⟩

/-- Settles O31: the four go through the active backend, whose first check is FSM. -/
theorem sendingIsRefusedOutsideActive : Obligations.SendingIsRefusedOutsideActive :=
  fun _ _ hfsm => ⟨if_neg hfsm, if_neg hfsm, if_neg hfsm, if_neg hfsm⟩

/-! ### The response -/

/-- Settles O42: only allocation and an unavailable ACTIVATE answer another status than OK, and only the three commands
that respond have a result. The two wire units complete nothing and are no commands. -/
theorem statusesAndResultsByCommand : Obligations.StatusesAndResultsByCommand := by
  intro i s t hcommand hnext
  cases effect_of_exec hnext with
  | respond w hi => exact ⟨nofun, nofun, fun _ => hi⟩
  | write hi hwrite =>
    rw [hwrite.frame]
    exact ⟨nofun, nofun, fun h => absurd rfl h⟩
  | resize n hi =>
    exact ⟨fun _ => .inr (.inr ⟨n, hi⟩), fun h => absurd h (State.newStore_status_ne_backendUnavailable n s),
      fun h => absurd (State.newStore_result n s) h⟩
  | construct k n hi =>
    refine ⟨fun _ => ?_, fun h => absurd h (State.newStore_status_ne_backendUnavailable n _),
      fun h => absurd (State.newStore_result n _) h⟩
    obtain ⟨hi, -⟩ | ⟨d, c, slow, hi, -⟩ := hi
    · exact .inl ⟨n, hi⟩
    · exact .inr (.inl ⟨n, d, c, slow, hi⟩)
  | select k hi => exact ⟨nofun, nofun, fun h => absurd rfl h⟩
  | unavailable hi => exact ⟨nofun, fun _ => hi, fun h => absurd rfl h⟩
  | activate evs hi => exact ⟨nofun, nofun, fun h => absurd rfl h⟩
  | transmit hi => exact ⟨nofun, nofun, fun h => absurd rfl h⟩
  | emitLatch hi => exact ⟨nofun, nofun, fun h => absurd rfl h⟩
  | wireUnit b hi => obtain ⟨_, rfl, -⟩ | ⟨rfl, -⟩ := hi <;> cases hcommand

/-- Settles O58: the codes are those of `Status.code`, which has three values. -/
theorem statusCodes : Obligations.StatusCodes := by
  refine ⟨rfl, rfl, rfl, fun s => ⟨?_, rfl⟩⟩
  unfold State.response
  cases s.status
  · exact .inl rfl
  · exact .inr (.inl rfl)
  · exact .inr (.inr rfl)

end Sys2Proof.Machine

/-! Selection and allocation (R70, R74, R80 to R83, R88, R121): the selecting commands are `select`, the allocating ones
`newStore`, the constructions one after the other; so each of the two is read once. -/

namespace Sys2Proof.Machine

/-! ### Selection -/

/-- A state with the wire and the lines that selection leaves has the old backend quiesced into it (R82, R88). -/
theorem quiescedInto_of_select {s t : State} (k : Backend) (hwire : t.wire = (s.select k).wire)
    (hlines : t.lines = (s.select k).lines) : QuiescedInto s t := by
  unfold QuiescedInto
  rw [hwire, hlines]
  obtain ⟨hkeep, h⟩ | ⟨hfsm, hb, h⟩ | ⟨hfsm, d, c, slow, hb, h⟩ := State.select_cases k s
  · simp only [h, and_self, implies_true, true_and]
    refine ⟨fun hfsm hb => ?_, fun hfsm d c slow hb => ?_⟩
    · simp [hfsm, hb] at hkeep
    · simp [hfsm, hb] at hkeep
  · simp [h, hfsm, hb, Lines.after]
  · simp [h, hfsm, hb, Lines.after]

/-- Settles O22: SELECT_NATIVE is the selection of the native backend, then `(OK, 0)`. -/
theorem selectNativeQuiescesAndConfigures : Obligations.SelectNativeQuiescesAndConfigures := by
  intro s
  refine ⟨_, rfl, ?_, quiescedInto_of_select .native rfl rfl⟩
  conv_lhs => rw [State.select_frame]
  rfl

/-- Settles O23: SELECT_PINS is the selection of the manual backend, then `(OK, 0)`. -/
theorem selectPinsQuiescesAndConfigures : Obligations.SelectPinsQuiescesAndConfigures := by
  intro s d c slow
  refine ⟨_, rfl, ?_, quiescedInto_of_select (.manual d c slow) rfl rfl⟩
  conv_lhs => rw [State.select_frame]
  rfl

/-- Settles O24: neither quiescing event clocks a bit, whatever the data level before it. -/
theorem quiesceDisablesWithoutClocking : Obligations.QuiesceDisablesWithoutClocking := by
  intro s
  refine ⟨fun hb => ?_, fun d c slow hb => ?_, fun hb => ?_, ?_⟩
  · simp [State.quiesce, hb, State.emit, Lines.after]
  · simp [State.quiesce, hb, State.emit, State.floatLines, Lines.after]
  · simp [State.quiesce, hb]
  · unfold State.quiesce
    split
    · rfl
    · simp [wireBits, wireBitsFrom_append, wireBitsFrom]
    · simp [wireBits, wireBitsFrom_append, wireBitsFrom]

/-! ### Allocation -/

/-- The store that NEW and RESIZE leave, byte by byte (R70, R74, R121). -/
theorem allocatedInto_newStore (n : Half) (s : State) : AllocatedInto s.cfg n (s.newStore n) := by
  obtain ⟨hok, h⟩ | ⟨hfail, h⟩ := State.newStore_cases n s
  · rw [h]
    refine ⟨fun _ => ⟨rfl, rfl, fun a ha => if_pos ha, fun a ha => if_neg (Nat.not_lt.mpr ha)⟩, fun hfail => ?_⟩
    rw [hok] at hfail
    cases hfail
  · rw [h]
    refine ⟨fun hok => ?_, fun _ => ⟨rfl, rfl, rfl, fun a => if_neg (Nat.not_lt_zero a)⟩⟩
    rw [hfail] at hok
    cases hok

/-- Settles O12: RESIZE is the allocation and nothing else. -/
theorem resizeReplacesTheStore : Obligations.ResizeReplacesTheStore :=
  fun s n => ⟨_, rfl, State.newStore_frame n s, allocatedInto_newStore n s⟩

/-- A construction is allocation after selection; its frame is the two frames together (R80, R81). -/
theorem State.select_newStore_frame (k : Backend) (n : Half) (s : State) :
    (s.select k).newStore n = { s with
      fsm := .configured, backend := k, length := ((s.select k).newStore n).length, pix := ((s.select k).newStore n).pix
      status := ((s.select k).newStore n).status, result := 0, wire := ((s.select k).newStore n).wire
      lines := ((s.select k).newStore n).lines, freeCount := ((s.select k).newStore n).freeCount } := by
  obtain ⟨-, h⟩ | ⟨-, h⟩ := State.newStore_cases n (s.select k) <;> rw [h, State.select_frame]

theorem allocatedInto_select_newStore (k : Backend) (n : Half) (s : State) :
    AllocatedInto s.cfg n ((s.select k).newStore n) := by
  have h : AllocatedInto (s.select k).cfg n ((s.select k).newStore n) := allocatedInto_newStore n (s.select k)
  rwa [State.select_cfg] at h

/-- Settles O20: allocation leaves the wire and the lines as the selection before it did. -/
theorem constructNativeSelectsThenAllocates : Obligations.ConstructNativeSelectsThenAllocates :=
  fun s n => ⟨_, rfl, State.select_newStore_frame .native n s,
    quiescedInto_of_select .native (State.newStore_wire n _) (State.newStore_lines n _),
    allocatedInto_select_newStore .native n s⟩

/-- Settles O21: as O20, with the manual backend selected. -/
theorem constructPinsSelectsThenAllocates : Obligations.ConstructPinsSelectsThenAllocates :=
  fun s n d c slow => ⟨_, rfl, State.select_newStore_frame (.manual d c slow) n s,
    quiescedInto_of_select _ (State.newStore_wire n _) (State.newStore_lines n _),
    allocatedInto_select_newStore _ n s⟩

end Sys2Proof.Machine

/-! The laws of the pixel commands (R77), of the packed colour word and of the latch length (R86), the reset state, and
the recovery from a failed allocation (R128). -/

namespace Sys2Proof.Machine

/-! ### The bytes of a packed word, taken out again -/

section
variable (g r b : Byte)

@[simp] theorem greenByteOf_placeBytes : greenByteOf (placeBytes g r b) = g := by
  ext i hi
  have hword : 16 + i < 32 := by omega
  have hblue : ¬16 + i < 8 := by omega
  simp [greenByteOf, BitVec.getLsbD_eq_getElem hword, getElem_placeBytes, hblue, BitVec.getLsbD_eq_getElem hi]

@[simp] theorem redByteOf_placeBytes : redByteOf (placeBytes g r b) = r := by
  ext i hi
  have hword : 8 + i < 32 := by omega
  have hred : 8 + i < 16 := by omega
  simp [redByteOf, BitVec.getLsbD_eq_getElem hword, getElem_placeBytes, hred, BitVec.getLsbD_eq_getElem hi]

@[simp] theorem blueByteOf_placeBytes : blueByteOf (placeBytes g r b) = b := by
  ext i hi
  have hword : i < 32 := by omega
  simp [blueByteOf, BitVec.getLsbD_eq_getElem hword, getElem_placeBytes, hi]

end

/-- A word's three low bytes, put back in their places, are the word without its top byte (R65). -/
theorem placeBytes_bytesOf (c : Word) :
    placeBytes (greenByteOf c) (redByteOf c) (blueByteOf c) = c &&& placeBytes 0xFF#8 0xFF#8 0xFF#8 := by
  have hones (k : Nat) : (0xFF#8).getLsbD k = decide (k < 8) := BitVec.getLsbD_allOnes
  ext i hi
  simp only [BitVec.getElem_and, getElem_placeBytes, greenByteOf, redByteOf, blueByteOf, BitVec.getLsbD_extractLsb',
    hones]
  split_ifs with hblue hred
  · simp [hblue, BitVec.getLsbD_eq_getElem hi]
  · have hred' : i - 8 < 8 := by omega
    have hback : 8 + (i - 8) = i := by omega
    simp [hred', hback, BitVec.getLsbD_eq_getElem hi]
  · have hback : 16 + (i - 16) = i := by omega
    simp [hback, BitVec.getLsbD_eq_getElem hi, Bool.and_comm]

/-- Stripping the three bytes of a word is masking the word (R73). -/
theorem placeBytes_stripByte_bytesOf (c : Word) :
    placeBytes (stripByte (greenByteOf c)) (stripByte (redByteOf c)) (stripByte (blueByteOf c))
      = c &&& 0x007F7F7F#32 := by
  have hmask : placeBytes 0xFF#8 0xFF#8 0xFF#8 &&& placeBytes 0x7F#8 0x7F#8 0x7F#8 = 0x007F7F7F#32 := by decide
  calc placeBytes (stripByte (greenByteOf c)) (stripByte (redByteOf c)) (stripByte (blueByteOf c))
      = placeBytes (greenByteOf c) (redByteOf c) (blueByteOf c) &&& placeBytes 0x7F#8 0x7F#8 0x7F#8 := by
        rw [placeBytes_and_placeBytes]
        rfl
    _ = c &&& 0x007F7F7F#32 := by rw [placeBytes_bytesOf, BitVec.and_assoc, hmask]

/-! ### The marker bits -/

theorem markByte_and_marker (v : Byte) : markByte v &&& 0x80#8 = 0x80#8 := by
  ext i hi
  simp only [markByte, BitVec.getElem_and, BitVec.getElem_or]
  cases (0x80#8)[i] <;> simp

theorem markByte_markByte (v : Byte) : markByte (markByte v) = markByte v := by
  rw [markByte, markByte, BitVec.or_assoc, BitVec.or_self]

theorem markByte_extractLsb' (v : Byte) : (markByte v).extractLsb' 0 7 = v.extractLsb' 0 7 := by
  have hlow : (0x80#8).extractLsb' 0 7 = 0#7 := by decide
  rw [markByte, BitVec.extractLsb'_or, hlow, BitVec.or_zero]

theorem extractLsb'_low_extractLsb' (c : Word) (k : Nat) : (c.extractLsb' k 8).extractLsb' 0 7 = c.extractLsb' k 7 := by
  rw [← BitVec.setWidth_eq_extractLsb' (by decide), BitVec.setWidth_extractLsb'_of_le (by decide)]

/-- The unpacked channels are the low seven bits of the word's three bytes (R58). -/
theorem unpackColour_eq (c : Word) :
    unpackColour c
      = ((redByteOf c).extractLsb' 0 7, (greenByteOf c).extractLsb' 0 7, (blueByteOf c).extractLsb' 0 7) := by
  simp only [unpackColour, redByteOf, greenByteOf, blueByteOf, extractLsb'_low_extractLsb']

/-- Settles O14: a packed word is its three marked bytes, so masking and unpacking it act on each of them. -/
theorem unpackOfPackIsTheLowSevenBits : Obligations.UnpackOfPackIsTheLowSevenBits := by
  intro r g b
  constructor
  · have hmask : placeBytes 0xFF#8 0xFF#8 0xFF#8 &&& 0xFF808080#32 = placeBytes 0x80#8 0x80#8 0x80#8 := by decide
    have htop : packColour r g b = packColour r g b &&& placeBytes 0xFF#8 0xFF#8 0xFF#8 := by
      rw [← placeBytes_bytesOf]
      simp [packColour]
    rw [htop, BitVec.and_assoc, hmask, packColour, placeBytes_and_placeBytes, markByte_and_marker,
      markByte_and_marker, markByte_and_marker]
    decide
  · simp [unpackColour_eq, packColour, markByte_extractLsb']

/-! ### The round trip through the store -/

/-- What is read at a pixel in range right after it has been written (R71 to R73). -/
theorem exists_storePixel_read {s : State} {index : Half} (p : StoredPixel) (hin : index < s.length) :
    ∃ t, storePixel index p s = .next t ∧ execGetPixelPacked index t = .next (t.complete .ok p.masked) := by
  obtain ⟨t, hnext, hframe, hbytes, -⟩ := storePixel_spec index p s
  obtain ⟨hgreen, hred, hblue, -⟩ := hbytes hin
  have hin' : index < t.length := by rwa [hframe]
  obtain ⟨q, hread, hget⟩ := execGetPixelPacked_of_lt_length hin'
  obtain ⟨hgreen', hred', hblue'⟩ := State.memReadPixel_spec t _ q hread
  have hq : q = p := by
    obtain ⟨qg, qr, qb⟩ := q
    obtain ⟨pg, pr, pb⟩ := p
    cases hgreen.symm.trans hgreen'
    cases hred.symm.trans hred'
    cases hblue.symm.trans hblue'
    rfl
  exact ⟨t, hnext, by rw [hget, hq]⟩

/-- Settles O16: the read after the write answers the written bytes stripped; of a word that is the word masked. -/
theorem pixelRoundTrips : Obligations.PixelRoundTrips := by
  intro s i r g b c hin
  refine ⟨?_, ?_, ?_, (exec_setPixel_unpackColour s i c).symm⟩
  · obtain ⟨t, hnext, hread⟩ := exists_storePixel_read ⟨markByte g, markByte r, markByte b⟩ hin
    refine ⟨t, _, hnext, hread, ?_⟩
    rw [State.complete_result, StoredPixel.masked, stripByte_markByte, stripByte_markByte, stripByte_markByte]
    rfl
  · obtain ⟨t, hnext, hread⟩ := exists_storePixel_read
      ⟨markByte (greenByteOf c), markByte (redByteOf c), markByte (blueByteOf c)⟩ hin
    refine ⟨t, _, hnext, hread, ?_⟩
    rw [State.complete_result, StoredPixel.masked, stripByte_markByte, stripByte_markByte, stripByte_markByte,
      placeBytes_stripByte_bytesOf]
  · simp [exec, execSetPixel, execSetPixelPacked, packColour, markByte_markByte]

/-! ### Different pixels -/

/-- What a pixel write leaves at an address is decided by LENGTH and what stood there before. -/
theorem pixByte_congr_of_storePixel {s s' t t' : State} {index : Half} {p : StoredPixel} {a : Nat}
    (hlen : s'.length = s.length) (ha : s'.pixByte a = s.pixByte a)
    (h : storePixel index p s = .next t) (h' : storePixel index p s' = .next t') :
    t'.pixByte a = t.pixByte a := by
  obtain ⟨u, hu, hframe, hin, hout⟩ := storePixel_spec index p s
  obtain ⟨u', hu', hframe', hin', hout'⟩ := storePixel_spec index p s'
  cases hu.symm.trans h
  cases hu'.symm.trans h'
  by_cases hlt : index < s.length
  · obtain ⟨hgreen, hred, hblue, hother⟩ := hin hlt
    obtain ⟨hgreen', hred', hblue', hother'⟩ := hin' (hlen ▸ hlt)
    have hwhere : a = pixelAddress index ∨ a = pixelAddress index + 1 ∨ a = pixelAddress index + 2
        ∨ (a < pixelAddress index ∨ pixelAddress index + 3 ≤ a) := by omega
    obtain rfl | rfl | rfl | hne := hwhere
    · rw [hgreen, hgreen']
    · rw [hred, hred']
    · rw [hblue, hblue']
    · rw [hother a hne, hother' a hne, ha]
  · have hle : s.length ≤ index := BitVec.not_lt.mp hlt
    rw [hframe, hframe', hout hle, hout' (hlen ▸ hle)]
    exact ha

/-- A pixel write keeps LENGTH and every byte away from its pixel, in range or not. -/
theorem pixByte_other_of_storePixel {s t : State} {index : Half} {p : StoredPixel}
    (h : storePixel index p s = .next t) :
    t.length = s.length
      ∧ ∀ a, a < pixelAddress index ∨ pixelAddress index + 3 ≤ a → t.pixByte a = s.pixByte a := by
  obtain ⟨u, hu, hframe, hin, hout⟩ := storePixel_spec index p s
  cases hu.symm.trans h
  refine ⟨by rw [hframe], fun a hne => ?_⟩
  by_cases hlt : index < s.length
  · exact (hin hlt).2.2.2 a hne
  · rw [hframe, hout (BitVec.not_lt.mp hlt)]
    rfl

/-- No address lies in two different pixels (R31). -/
theorem outside_pixel_of_ne {i j : Half} (hne : i ≠ j) (a : Nat) :
    (a < pixelAddress i ∨ pixelAddress i + 3 ≤ a) ∨ (a < pixelAddress j ∨ pixelAddress j + 3 ≤ a) := by
  have hne' : i.toNat ≠ j.toNat := fun h => hne (BitVec.eq_of_toNat_eq h)
  unfold pixelAddress
  omega

/-- Settles O17: an address lies outside one of the two pixels; there that pixel's write changes nothing in either
order, and the other one writes the same. -/
theorem differentPixelsAreIndependent : Obligations.DifferentPixelsAreIndependent := by
  intro s t u v w i j r g b r' g' b' hne hst htu hsv hvw a
  obtain ⟨htlen, ht⟩ := pixByte_other_of_storePixel hst
  obtain ⟨-, hu⟩ := pixByte_other_of_storePixel htu
  obtain ⟨hvlen, hv⟩ := pixByte_other_of_storePixel hsv
  obtain ⟨-, hw⟩ := pixByte_other_of_storePixel hvw
  obtain hout | hout := outside_pixel_of_ne hne a
  · rw [hw a hout]
    exact pixByte_congr_of_storePixel htlen (ht a hout) hsv htu
  · rw [hu a hout]
    exact (pixByte_congr_of_storePixel hvlen (hv a hout) hst hvw).symm

/-! ### The latch length -/

/-- Settles O19: on naturals `latch_len(n)` is `(n + 31) / 32`, and below 65535 the successor does not wrap. -/
theorem latchArithmetic : Obligations.LatchArithmetic := by
  intro m n
  have hzero : n = 0 ↔ n.toNat = 0 := by
    rw [← BitVec.toNat_inj]
    rfl
  refine ⟨fun hle => ?_, ?_, fun hne => ?_, latchLen_le n, fun hne => ?_⟩
  · have : m.toNat ≤ n.toNat := hle
    rw [latchLen_eq, latchLen_eq]
    omega
  · rw [hzero, latchLen_eq]
    omega
  · rw [ne_eq, hzero] at hne
    rw [latchLen_eq]
    omega
  · have hlast : n.toNat ≠ 65535 := fun h => hne (BitVec.eq_of_toNat_eq h)
    have hlt : n.toNat < 65536 := n.isLt
    have hsucc : (n + 1).toNat = n.toNat + 1 := by
      have hone : (1 : Half).toNat = 1 := rfl
      rw [BitVec.toNat_add, hone]
      exact Nat.mod_eq_of_lt (by omega)
    rw [latchLen_eq, latchLen_eq, hsucc]
    omega

/-! ### Reset, and several framers -/

/-- Settles O56: the reset state, field by field. -/
theorem resetValues : Obligations.ResetValues :=
  ⟨rfl, fun _ => ⟨rfl, rfl, rfl, fun a => if_neg (Nat.not_lt_zero a), rfl, rfl, rfl, rfl, rfl, rfl, rfl⟩⟩

/-- Settles O57: at reset LENGTH is 0, so every index is out of range, and the response is already `(OK, 0)`. -/
theorem pixelCommandsAfterResetDoNothing : Obligations.PixelCommandsAfterResetDoNothing :=
  fun cfg index r g b color => outOfRangeIndexIsSilent (State.resetWith cfg) index r g b color (.inr rfl)

/-- Settles O59: only the list's element `k` is replaced, by what `exec` makes of it. -/
theorem instancesShareNoState : Obligations.InstancesShareNoState := by
  intro k i bench bench' h
  unfold benchExec at h
  cases hk : bench[k]? with
  | none => simp [hk] at h
  | some s =>
    cases hexec : exec i s with
    | fault f => simp [hk, hexec] at h
    | refused r => simp [hk, hexec] at h
    | next t =>
      obtain rfl : bench.set k t = bench' := by simpa [hk, hexec] using h
      obtain ⟨hlt, -⟩ := List.getElem?_eq_some_iff.mp hk
      exact ⟨List.length_set, fun j hj => List.getElem?_set_ne hj.symm, s, t, rfl, List.getElem?_set_self hlt, hexec⟩

/-! ### A failed allocation -/

/-- Settles O55: RESIZE reads no more of the degraded strip than the parameters, which it kept. -/
theorem degradedStripRecovers : Obligations.DegradedStripRecovers := by
  intro s t n m index r g b _ ht hok hin
  cases ht
  obtain ⟨-, hnew⟩ | ⟨hfail, -⟩ := State.newStore_cases m (s.newStore n)
  · have hin' : index < ((s.newStore n).newStore m).length := by rwa [hnew]
    obtain ⟨v, hv, -, hbytes, -⟩ := storePixel_spec index ⟨markByte g, markByte r, markByte b⟩
      ((s.newStore n).newStore m)
    exact ⟨_, v, rfl, by rw [hnew], by rw [hnew], hv, (hbytes hin').1⟩
  · rw [State.newStore_cfg, hok] at hfail
    cases hfail

end Sys2Proof.Machine

/-! What an instruction sends (R84, R85, R87, R91, R93, R94, R108, R109). One notion, `Clocks`, says which bytes a
sequence of events clocks to the strip whatever was sent before; every effect appends events that clock exactly the
bytes `sentBytes` names. -/

namespace Sys2Proof.Machine

/-! ### Events and the bytes they clock -/

/-- The events clock the bits of the bytes, and no others, whatever the data level before them. -/
def Clocks (evs : List Event) (bs : List Byte) : Prop := ∀ level, wireBitsFrom level evs = bs.flatMap bitsMsbFirst

theorem Clocks.nil : Clocks [] [] := fun _ => rfl

theorem Clocks.append {evs evs' : List Event} {bs bs' : List Byte} (h : Clocks evs bs) (h' : Clocks evs' bs') :
    Clocks (evs ++ evs') (bs ++ bs') := by
  intro level
  rw [wireBitsFrom_append, h, h', List.flatMap_append]

theorem clocks_byteEvents {k : Backend} (hk : k ≠ .none) (bs : List Byte) :
    Clocks (bs.flatMap (byteEvents k)) bs := fun level => wireBitsFrom_flatMap_byteEvents level k bs hk

theorem clocks_settle (ms : Nat) : Clocks [.settle ms] [] := fun _ => rfl

theorem clocks_enableEvents {s : State} {evs : List Event} (h : s.enableEvents = some evs) : Clocks evs [] := by
  obtain ⟨-, ⟨-, -, rfl⟩ | ⟨d, c, -, -, rfl⟩⟩ := State.enableEvents_cases s evs h <;> exact fun _ => rfl

theorem Clocks.wireBits_append {evs : List Event} {bs : List Byte} (h : Clocks evs bs) (w : List Event) :
    wireBits (w ++ evs) = wireBits w ++ bs.flatMap bitsMsbFirst := by
  rw [wireBits, wireBitsFrom_append, h, wireBits]

theorem Clocks.wireBytes_eq {evs : List Event} {bs : List Byte} (h : Clocks evs bs) : wireBytes evs = bs := by
  rw [wireBytes, wireBits, h, bytesOfBits_flatMap_bitsMsbFirst]

/-- A byte's events hold no settle delay. -/
theorem countP_isSettle_byteEvents (k : Backend) (bs : List Byte) :
    (bs.flatMap (byteEvents k)).countP Event.isSettle = 0 := by
  rw [List.countP_flatMap]
  refine List.sum_eq_zero fun n hn => ?_
  obtain ⟨b, -, rfl⟩ := List.mem_map.mp hn
  cases k <;> rfl

theorem countP_isSettle_enableEvents {s : State} {evs : List Event} (h : s.enableEvents = some evs) :
    evs.countP Event.isSettle = 0 := by
  obtain ⟨-, ⟨-, -, rfl⟩ | ⟨d, c, -, -, rfl⟩⟩ := State.enableEvents_cases s evs h <;> rfl

/-! ### What each operation appends -/

/-- Everything TRANSMIT appends to WIRE (R85). -/
def State.transmissionEvents (s : State) : List Event :=
  s.frameBytes.flatMap (byteEvents s.backend) ++ [.settle s.cfg.settleDelayMs]

theorem State.transmitted_wire (s : State) : s.transmitted.wire = s.wire ++ s.transmissionEvents := by
  simp [State.transmitted, State.transmissionEvents, State.frameBytes]

/-- What TRANSMIT appends depends on nothing that it changes. -/
theorem State.transmissionEvents_transmitted (s : State) : s.transmitted.transmissionEvents = s.transmissionEvents := by
  simp [State.transmissionEvents, State.frameBytes, State.colourBytes, State.latchBytes, State.storeSize]

theorem State.clocks_transmissionEvents {s : State} (hb : s.backend ≠ .none) :
    Clocks s.transmissionEvents s.frameBytes := by
  have h := (clocks_byteEvents hb s.frameBytes).append (clocks_settle s.cfg.settleDelayMs)
  rwa [List.append_nil] at h

theorem State.latched_wire (s : State) :
    s.latched.wire = s.wire ++ s.latchBytes.flatMap (byteEvents s.backend) := by
  simp [State.latched]

theorem State.clocks_activationEvents {s : State} {evs : List Event} (h : s.enableEvents = some evs) :
    Clocks (s.activationEvents evs) s.latchBytes :=
  (clocks_enableEvents h).append (clocks_byteEvents (State.backend_ne_none_of_enableEvents h) s.latchBytes)

/-- Selecting appends at most the quiescing event, which clocks nothing (R88). -/
theorem State.select_wire (k : Backend) (s : State) :
    ∃ evs, (s.select k).wire = s.wire ++ evs ∧ Clocks evs [] ∧ evs.countP Event.isSettle = 0 := by
  obtain ⟨-, h⟩ | ⟨-, -, h⟩ | ⟨-, d, c, slow, -, h⟩ := State.select_cases k s
  · exact ⟨[], by simp [h], Clocks.nil, rfl⟩
  · exact ⟨[.nativeEnd], by simp [h], fun _ => rfl, rfl⟩
  · exact ⟨[.pinsRelease d c], by simp [h], fun _ => rfl, rfl⟩

/-- Every effect appends events that clock the bytes the instruction stands for, with its settle delays. -/
theorem Effect.sends {s t : State} {i : Instr} (h : Effect s i t) :
    ∃ evs, t.wire = s.wire ++ evs ∧ Clocks evs (sentBytes i s) ∧ evs.countP Event.isSettle = settleCount i := by
  cases h with
  | respond w hi =>
    obtain ⟨_, rfl⟩ | ⟨_, _, _, rfl⟩ | ⟨_, rfl⟩ := hi <;> exact ⟨[], by simp, Clocks.nil, rfl⟩
  | write hi hwrite =>
    rw [hwrite.frame]
    obtain ⟨_, _, _, _, rfl⟩ | ⟨_, _, rfl⟩ := hi <;> exact ⟨[], by simp, Clocks.nil, rfl⟩
  | resize n hi =>
    subst hi
    exact ⟨[], by simp, Clocks.nil, rfl⟩
  | construct k n hi =>
    rw [State.newStore_wire]
    obtain ⟨rfl, -⟩ | ⟨_, _, _, rfl, -⟩ := hi <;> exact s.select_wire k
  | select k hi =>
    rw [State.complete_wire]
    obtain ⟨rfl, -⟩ | ⟨_, _, _, rfl, -⟩ := hi <;> exact s.select_wire k
  | unavailable hi hnone =>
    subst hi
    refine ⟨[], by simp, ?_, rfl⟩
    simp [sentBytes, activationAvailable_of_none hnone, Clocks.nil]
  | activate evs hi hsome =>
    subst hi
    refine ⟨_, s.activated_wire evs, ?_, ?_⟩
    · simpa [sentBytes, activationAvailable_of_some hsome] using State.clocks_activationEvents hsome
    · rw [State.activationEvents, List.countP_append, countP_isSettle_enableEvents hsome, countP_isSettle_byteEvents]
      rfl
  | transmit hi hready =>
    subst hi
    refine ⟨_, s.transmitted_wire, State.clocks_transmissionEvents hready.2, ?_⟩
    rw [State.transmissionEvents, List.countP_append, countP_isSettle_byteEvents]
    rfl
  | emitLatch hi hready =>
    subst hi
    exact ⟨_, s.latched_wire, clocks_byteEvents hready.2 _, countP_isSettle_byteEvents _ _⟩
  | wireUnit b hi hready =>
    have hclocks := clocks_byteEvents hready.2 [b]
    have hcount := countP_isSettle_byteEvents s.backend [b]
    rw [List.flatMap_singleton] at hclocks hcount
    obtain ⟨x, rfl, rfl⟩ | ⟨rfl, rfl⟩ := hi <;> exact ⟨_, rfl, hclocks, hcount⟩

/-! ### Sizes, settle delays and the whole run -/

theorem length_frameBytes (s : State) : s.frameBytes.length = 3 * s.length.toNat + latchLen s.length := by
  simp [State.frameBytes, State.storeSize]

/-- How many bits an instruction clocks: eight for each byte it sends. -/
theorem length_wireBits_of_exec {i : Instr} {s t : State} (h : exec i s = .next t) :
    (wireBits t.wire).length = (wireBits s.wire).length + 8 * (sentBytes i s).length := by
  obtain ⟨evs, hwire, hclocks, -⟩ := (effect_of_exec h).sends
  rw [hwire, hclocks.wireBits_append, List.length_append, length_flatMap_bitsMsbFirst]

/-- ACTIVATE completes with OK exactly when it is available (R84, R123). -/
theorem status_ok_iff_of_exec_activate {s t : State} (h : exec .activate s = .next t) :
    t.status = .ok ↔ activationAvailable s = true := by
  cases henable : s.enableEvents with
  | none =>
    cases (exec_activate_of_enableEvents_none henable).symm.trans h
    simp [activationAvailable_of_none henable]
  | some evs =>
    cases (exec_activate_of_enableEvents_some henable).symm.trans h
    rw [activationAvailable_of_some henable]
    exact iff_of_true rfl rfl

/-- Settles O34: a frame has `3 * LENGTH + latch_len(LENGTH)` bytes, a latch sequence `latch_len(LENGTH)`. -/
theorem sizesOfWhatIsSent : Obligations.SizesOfWhatIsSent := by
  intro s t
  refine ⟨fun h => ?_, fun h => ?_, fun h hok => ?_⟩
  · rw [length_wireBits_of_exec h, sentBytes, length_frameBytes]
  · rw [length_wireBits_of_exec h, sentBytes, length_latchBytes]
  · rw [length_wireBits_of_exec h, sentBytes, if_pos ((status_ok_iff_of_exec_activate h).mp hok), length_latchBytes]

/-- What an instruction stands for does not depend on the backend, but for whether ACTIVATE is available. -/
theorem sentBytes_congr_backend (i : Instr) (s : State) (k₁ k₂ : Backend)
    (h : i = .activate →
      activationAvailable { s with backend := k₁ } = activationAvailable { s with backend := k₂ }) :
    sentBytes i { s with backend := k₁ } = sentBytes i { s with backend := k₂ } := by
  cases i
  case activate =>
    simp only [sentBytes, h rfl]
    rfl
  all_goals rfl

/-- Settles O35: the bytes are those of `sentBytes`, and equal statuses say that ACTIVATE was available on both backends
or on neither. -/
theorem bytesDoNotDependOnTheBackend : Obligations.BytesDoNotDependOnTheBackend := by
  intro i s t₁ t₂ k₁ k₂ h₁ h₂ hstatus
  obtain ⟨e₁, hwire₁, hclocks₁, -⟩ := (effect_of_exec h₁).sends
  obtain ⟨e₂, hwire₂, hclocks₂, -⟩ := (effect_of_exec h₂).sends
  refine ⟨e₁, e₂, hwire₁, hwire₂, ?_⟩
  rw [hclocks₁.wireBytes_eq, hclocks₂.wireBytes_eq]
  refine sentBytes_congr_backend i s k₁ k₂ fun hi => ?_
  subst hi
  rw [Bool.eq_iff_iff, ← status_ok_iff_of_exec_activate h₁, ← status_ok_iff_of_exec_activate h₂, hstatus]

/-- TRANSMIT that runs was ready and ends in the transmitted state (R85). -/
theorem eq_transmitted_of_exec {s t : State} (h : exec .transmit s = .next t) : s.Ready ∧ t = s.transmitted := by
  rw [exec, execTransmit] at h
  exact eq_send_of_throughActiveBackend h

/-- Settles O36: the second TRANSMIT is ready as the first was, and what it appends is the same. -/
theorem transmitTwiceIsIdentical : Obligations.TransmitTwiceIsIdentical := by
  intro s t h
  obtain ⟨hready, rfl⟩ := eq_transmitted_of_exec h
  have hready' : s.transmitted.Ready := by rwa [State.Ready, State.transmitted_fsm, State.transmitted_backend]
  refine ⟨s.transmitted_pix, s.transmitted_length, _, s.transmissionEvents, exec_transmit_of_ready hready',
    s.transmitted_wire, ?_⟩
  rw [State.transmitted_wire, State.transmissionEvents_transmitted]

/-- A position of a frame below the store's size holds the byte of the store at that address (R54). -/
theorem getElem?_frameBytes {s : State} {a : Nat} (h : a < s.storeSize) : s.frameBytes[a]? = s.pixByte a := by
  rw [State.frameBytes, List.getElem?_append_left (by rwa [length_colourBytes]), getElem?_colourBytes]

/-- Settles O38: the frame after the write holds the bytes of the store after the write. -/
theorem pixelWriteIsSeenByTransmit : Obligations.PixelWriteIsSeenByTransmit := by
  intro s index r g b hin hfsm hb
  obtain ⟨t, hnext, hframe, hbytes, -⟩ := storePixel_spec index ⟨markByte g, markByte r, markByte b⟩ s
  obtain ⟨hgreen, hred, hblue, -⟩ := hbytes hin
  have hready : t.Ready := by
    rw [hframe]
    exact ⟨hfsm, hb⟩
  have hwire : t.wire = s.wire := by rw [hframe]
  have hinside : pixelAddress index + 3 ≤ t.storeSize := pixelAddress_inside t index (by rwa [hframe])
  refine ⟨t, _, t.transmissionEvents, hnext, exec_transmit_of_ready hready, hwire ▸ t.transmitted_wire, ?_⟩
  rw [(State.clocks_transmissionEvents hready.2).wireBytes_eq]
  change t.frameBytes[pixelAddress index]? = _ ∧ t.frameBytes[pixelAddress index + 1]? = _
    ∧ t.frameBytes[pixelAddress index + 2]? = _
  rw [getElem?_frameBytes (by omega), getElem?_frameBytes (by omega), getElem?_frameBytes (by omega)]
  exact ⟨hgreen, hred, hblue⟩

/-- Settles O39: the events an effect appends hold the instruction's settle delays, and TRANSMIT's end with its own. -/
theorem onlyTransmitSettles : Obligations.OnlyTransmitSettles := by
  intro i s t h
  obtain ⟨evs, hwire, -, hcount⟩ := (effect_of_exec h).sends
  refine ⟨by rw [hwire, List.countP_append, hcount], fun hi => ?_⟩
  subst hi
  obtain ⟨-, rfl⟩ := eq_transmitted_of_exec h
  rw [State.transmitted_wire, State.transmissionEvents, ← List.append_assoc, List.getLast?_concat]

/-- One instruction adds its bytes to a wire of whole bytes, and leaves whole bytes. -/
theorem wireBytes_of_exec {i : Instr} {s t : State} (hwhole : (wireBits s.wire).length % 8 = 0)
    (h : exec i s = .next t) :
    wireBytes t.wire = wireBytes s.wire ++ sentBytes i s ∧ (wireBits t.wire).length % 8 = 0 := by
  refine ⟨?_, by rw [length_wireBits_of_exec h]; omega⟩
  obtain ⟨evs, hwire, hclocks, -⟩ := (effect_of_exec h).sends
  rw [wireBytes, hwire, hclocks.wireBits_append, bytesOfBits_append _ _ hwhole, bytesOfBits_flatMap_bitsMsbFirst,
    wireBytes]

/-- A run that ends is its first instruction, then a run of the others. -/
theorem runCommands_cons {i : Instr} {is : List Instr} {s u : State} {responses : List (BitVec 4 × Word)}
    (h : runCommands (i :: is) s = .next (u, responses)) :
    ∃ t responses', exec i s = .next t ∧ runCommands is t = .next (u, responses') := by
  rw [runCommands] at h
  split at h
  · rename_i t hexec
    split at h
    · rename_i v responses' hrun
      cases h
      exact ⟨t, responses', hexec, hrun⟩
    · cases h
    · cases h
  · cases h
  · cases h

/-- Settles O40, by induction on the list of instructions. -/
theorem runSendsExactlyItsLatchesAndFrames : Obligations.RunSendsExactlyItsLatchesAndFrames := by
  intro is
  induction is with
  | nil =>
    intro s t responses _ h
    cases h
    exact (List.append_nil _).symm
  | cons i is ih =>
    intro s u responses hwhole h
    obtain ⟨t, responses', hexec, hrun⟩ := runCommands_cons h
    obtain ⟨hbytes, hwhole'⟩ := wireBytes_of_exec hwhole hexec
    calc wireBytes u.wire = wireBytes t.wire ++ sentByRun is t := ih t u responses' hwhole' hrun
      _ = wireBytes s.wire ++ sentByRun (i :: is) s := by rw [hbytes, sentByRun, hexec, List.append_assoc]

end Sys2Proof.Machine

/-! The exact states after ACTIVATE, TRANSMIT, EMIT_LATCH and the wire units on either backend (R84, R85, R87, R100 to
R104): sending a list of bytes and sending a latch sequence, once per backend, and each command from these two. -/

namespace Sys2Proof.Machine

/-! ### Lists of bytes on each backend -/

/-- A byte's events on the native backend: one transfer. -/
theorem flatMap_byteEvents_native (bs : List Byte) : bs.flatMap (byteEvents .native) = bs.map .nativeByte :=
  List.flatMap_singleton' bs ▸ (List.map_eq_flatMap).symm

/-- Zero bytes on the manual backend are zero bits, eight for each. -/
theorem flatMap_byteEvents_manual_zeros (d c : Byte) (slow : Bool) (n : Nat) :
    (List.replicate n 0x00#8).flatMap (byteEvents (.manual d c slow))
      = (List.replicate (8 * n) [Event.dat false, .clkHigh, .clkLow]).flatten := by
  induction n with
  | zero => rfl
  | succ n ih =>
    have hbyte : byteEvents (.manual d c slow) 0x00#8
        = (List.replicate 8 [Event.dat false, .clkHigh, .clkLow]).flatten := rfl
    have hmul : 8 * (n + 1) = 8 + 8 * n := by omega
    rw [List.replicate_succ, List.flatMap_cons, ih, hbyte, hmul, List.replicate_add, List.flatten_append]

section
variable {s : State}

theorem State.emitBytes_of_native (bs : List Byte) (hb : s.backend = .native) :
    s.emitBytes bs = { s with wire := s.wire ++ bs.map .nativeByte } := by
  rw [State.emitBytes, State.emit, hb, Lines.foldl_native, flatMap_byteEvents_native]

theorem State.emitLatchSequence_of_native (hb : s.backend = .native) :
    s.emitLatchSequence = { s with wire := s.wire ++ List.replicate (latchLen s.length) (.nativeByte 0x00#8) } := by
  rw [State.emitLatchSequence, State.emitBytes_of_native _ hb, State.latchBytes, List.map_replicate]

/-- After a latch sequence on the manual backend both lines are low, unless there was nothing to send (R102). -/
theorem State.emitLatchSequence_of_manual {d c : Byte} {slow : Bool} (hb : s.backend = .manual d c slow) :
    s.emitLatchSequence = { s with
      wire := s.wire ++ (List.replicate (8 * latchLen s.length) [Event.dat false, .clkHigh, .clkLow]).flatten
      lines := if s.length = 0 then s.lines else { s.lines with dat := false, clk := false } } := by
  have hzero : latchLen s.length = 0 ↔ s.length = 0 := (latchArithmetic 0 s.length).2.1
  rw [State.emitLatchSequence, State.emitBytes, State.emit, State.latchBytes, hb, Lines.foldl_manual_zeros,
    flatMap_byteEvents_manual_zeros]
  simp only [hzero]

end

/-! ### ACTIVATE -/

theorem State.enableEvents_of_native {s : State} (hfsm : s.fsm ≠ .uninitialized) (hb : s.backend = .native)
    (hpresent : s.cfg.nativePresent = true) :
    s.enableEvents = some [.nativeBegin, .nativeSetClock s.cfg.nativeClockHz] := by
  simp [State.enableEvents, hfsm, hb, hpresent]

theorem State.enableEvents_of_manual {s : State} {d c : Byte} {slow : Bool} (hfsm : s.fsm ≠ .uninitialized)
    (hb : s.backend = .manual d c slow) : s.enableEvents = some [.pinsOutput d c] := by
  simp [State.enableEvents, hfsm, hb]

/-- Settles O25: the enabling events switch the peripheral on, and its bytes move no line. -/
theorem activateOnNativeEnablesAndLatches : Obligations.ActivateOnNativeEnablesAndLatches := by
  intro s hfsm hb hpresent
  rw [exec_activate_of_enableEvents_some (State.enableEvents_of_native hfsm hb hpresent), State.activated,
    State.emitLatchSequence_of_native (by exact hb)]
  simp [State.finish, State.endTransfer, State.complete, Lines.after]

/-- Settles O26: with the pins at level 0 already, the latch sequence does not move them. -/
theorem activateOnPinsEnablesAndLatches : Obligations.ActivateOnPinsEnablesAndLatches := by
  intro s d c slow hfsm hb
  rw [exec_activate_of_enableEvents_some (State.enableEvents_of_manual hfsm hb), State.activated,
    State.emitLatchSequence_of_manual (by exact hb)]
  simp only [State.enable_lines, List.foldl_cons, List.foldl_nil, Lines.after, ite_self, State.enable_wire,
    List.append_assoc]
  rfl

/-- Settles O27: with no backend, or with the native one absent, nothing would enable the backend. -/
theorem activateUnavailableChangesNothing : Obligations.ActivateUnavailableChangesNothing := by
  intro s h
  refine exec_activate_of_enableEvents_none ?_
  obtain hfsm | ⟨hb, habsent⟩ := h
  · simp [State.enableEvents, hfsm]
  · simp [State.enableEvents, hb, habsent]

/-! ### TRANSMIT and EMIT_LATCH -/

theorem State.ready_of_native {s : State} (hfsm : s.fsm = .active) (hb : s.backend = .native) : s.Ready :=
  ⟨hfsm, by simp [hb]⟩

theorem State.ready_of_manual {s : State} {d c : Byte} {slow : Bool} (hfsm : s.fsm = .active)
    (hb : s.backend = .manual d c slow) : s.Ready :=
  ⟨hfsm, by simp [hb]⟩

/-- Settles O28: the colour bytes, the latch bytes and the settle event, none of which moves a line. -/
theorem transmitOnNativeSendsTheFrame : Obligations.TransmitOnNativeSendsTheFrame := by
  intro s hfsm hb
  refine ⟨s.colourBytes, getElem?_colourBytes s, ?_⟩
  rw [exec_transmit_of_ready (State.ready_of_native hfsm hb), State.transmitted, State.emitBytes_of_native _ hb,
    State.emitLatchSequence_of_native (by exact hb)]
  simp [State.settleDelay, State.emit, State.finish, State.endTransfer, State.complete, Lines.after]

/-- The lines after a frame: the latch sequence leaves both low, whatever the colour bytes left there. -/
theorem State.lines_latch_after_colour {s : State} {d c : Byte} {slow : Bool} (hb : s.backend = .manual d c slow) :
    (if s.length = 0 then (s.emitBytes s.colourBytes).lines
      else { (s.emitBytes s.colourBytes).lines with dat := false, clk := false })
        = if s.length = 0 then s.lines else { s.lines with dat := false, clk := false } := by
  obtain ⟨hdrive, hnative, -⟩ := Lines.foldl_manual_bytes s.lines d c slow s.colourBytes
  rw [State.emitBytes_lines, hb]
  split
  · rename_i hzero
    simp [State.colourBytes, State.storeSize, hzero]
  · simp only [hdrive, hnative]

/-- Settles O29: the same bytes clocked bit by bit; the latch sequence decides where the lines end. -/
theorem transmitOnPinsSendsTheFrame : Obligations.TransmitOnPinsSendsTheFrame := by
  intro s d c slow hfsm hb
  refine ⟨s.colourBytes, getElem?_colourBytes s, ?_⟩
  have hwire : (s.emitBytes s.colourBytes).wire
      = s.wire ++ s.colourBytes.flatMap (byteEvents (.manual d c slow)) := by rw [State.emitBytes_wire, hb]
  rw [exec_transmit_of_ready (State.ready_of_manual hfsm hb), State.transmitted,
    State.emitLatchSequence_of_manual (s := s.emitBytes s.colourBytes) hb, State.emitBytes_length,
    State.lines_latch_after_colour hb, hwire]
  simp only [State.settleDelay, State.emit, List.append_assoc]
  rfl

/-- Settles O30: the latch sequence on each backend, then `(OK, 0)`. -/
theorem emitLatchSendsOnlyTheLatchSequence : Obligations.EmitLatchSendsOnlyTheLatchSequence := by
  intro s hfsm
  refine ⟨fun hb => ?_, fun d c slow hb => ?_⟩
  · rw [exec_emitLatch_of_ready (State.ready_of_native hfsm hb), State.latched, State.emitLatchSequence_of_native hb]
    rfl
  · rw [exec_emitLatch_of_ready (State.ready_of_manual hfsm hb), State.latched, State.emitLatchSequence_of_manual hb]
    rfl

/-! ### The wire units -/

/-- The bits of a colour byte: the marker, then the intensity (R51). -/
theorem bitsMsbFirst_colourByteOf (x : BitVec 7) :
    bitsMsbFirst (colourByteOf x) = [true, x.getLsbD 6, x.getLsbD 5, x.getLsbD 4, x.getLsbD 3, x.getLsbD 2,
      x.getLsbD 1, x.getLsbD 0] := by
  simp only [bitsMsbFirst, colourByteOf, BitVec.getLsbD_append]
  rfl

/-- Settles O33: each unit is one `emit_byte`, of a byte whose bits are the marker and the intensity, or all 0. -/
theorem wireUnitsSendTheirByte : Obligations.WireUnitsSendTheirByte := by
  intro s x hfsm
  refine ⟨fun hb => ?_, fun d c slow hb => ?_⟩
  · have hready : s.Ready := State.ready_of_native hfsm hb
    rw [exec_colourByte_of_ready x hready, exec_latchByte_of_ready hready, State.emitByte_of_native _ hb,
      State.emitByte_of_native _ hb]
    exact ⟨rfl, rfl⟩
  · have hready : s.Ready := State.ready_of_manual hfsm hb
    have hbit : (colourByteOf x).getLsbD 0 = x.getLsbD 0 := by
      rw [colourByteOf, BitVec.getLsbD_append]
      rfl
    rw [exec_colourByte_of_ready x hready, exec_latchByte_of_ready hready, State.emitByte_of_manual _ hb,
      State.emitByte_of_manual _ hb, bitsMsbFirst_colourByteOf, hbit]
    exact ⟨rfl, rfl⟩

/-! ### A failed allocation -/

/-- Settles O54: with LENGTH = 0 every index is out of range, and a frame is empty but for its settle delay. -/
theorem allocationFailureLeavesAnInertStrip : Obligations.AllocationFailureLeavesAnInertStrip := by
  intro s t n hfail ht
  obtain ⟨hok, -⟩ | ⟨-, hnew⟩ := State.newStore_cases n s
  · rw [hfail] at hok
    cases hok
  · cases ht
    have hzero : (s.newStore n).length = 0 := by rw [hnew]
    have hsilent (index : Half) (r g b : Byte) (color : Word) :=
      outOfRangeIndexIsSilent (s.newStore n) index r g b color (.inr hzero)
    refine ⟨by rw [hnew], hzero, State.newStore_fsm n s, State.newStore_backend n s,
      fun index r g b => (hsilent index r g b 0).1, fun index color => (hsilent index 0 0 0 color).2.1,
      fun index => (hsilent index 0 0 0 0).2.2, fun hfsm hb => ?_⟩
    have hready : (s.newStore n).Ready := by
      rw [State.Ready, State.newStore_fsm, State.newStore_backend]
      exact ⟨hfsm, hb⟩
    have hcolour : (s.newStore n).colourBytes = [] := by simp [State.colourBytes, State.storeSize, hzero]
    have hlatch : (s.newStore n).latchBytes = [] := by simp [State.latchBytes, latchLen, hzero]
    rw [exec_transmit_of_ready hready, State.transmitted, hcolour, State.emitBytes_nil, State.emitLatchSequence, hlatch,
      State.emitBytes_nil]
    rfl

end Sys2Proof.Machine

/-! The invariant of the machine between commands (R12, R14, R15, R18, R20, R64, R109), its four parts one after the
other: each holds at reset and after every effect. -/

namespace Sys2Proof.Machine

/-! ### The store -/

theorem storeInv_of_pix_nil {s : State} (hpix : s.pix = []) : StoreInv s := by
  simp [StoreInv, hpix, Memory.wf]

theorem StoreInv.of_same_store {s t : State} (h : StoreInv s) (hpix : t.pix = s.pix) (hlen : t.length = s.length) :
    StoreInv t := by
  unfold StoreInv State.storeSize
  rwa [hpix, hlen]

/-- A marked pixel written inside the store keeps it canonical, inside its size and marked. -/
theorem StoreInv.pixelWritten {s t : State} (h : StoreInv s) (hwrite : PixelWritten s t) : StoreInv t := by
  obtain rfl | ⟨addr, p, u, ⟨hgreen, hred, hblue⟩, hu, rfl⟩ := hwrite
  · exact h
  · obtain ⟨hinside, hframe, -, -, -, -, hwf, hcells⟩ := State.memWritePixel_spec s u addr p hu
    have hsize : (u.complete .ok 0).storeSize = s.storeSize := by
      rw [hframe]
      rfl
    obtain ⟨hswf, hssize, hsmark⟩ := h
    refine ⟨hwf hswf, fun c hc => ?_, fun c hc => ?_⟩
    · rw [hsize]
      obtain hold | rfl | rfl | rfl := hcells c hc
      · exact hssize c hold
      all_goals simp only; omega
    · obtain hold | rfl | rfl | rfl := hcells c hc
      · exact hsmark c hold
      · exact hgreen
      · exact hred
      · exact hblue

theorem Effect.storeInv {s t : State} {i : Instr} (h : Effect s i t) (hs : StoreInv s) : StoreInv t := by
  cases h with
  | respond w hi => exact hs
  | write hi hwrite => exact hs.pixelWritten hwrite
  | resize n hi => exact storeInv_of_pix_nil (State.newStore_pix n s)
  | construct k n hi => exact storeInv_of_pix_nil (State.newStore_pix n _)
  | select k hi => exact hs.of_same_store (s.select_pix k) (s.select_length k)
  | unavailable hi hnone => exact hs
  | activate evs hi hsome => exact hs.of_same_store (by simp) (by simp)
  | transmit hi hready => exact hs.of_same_store s.transmitted_pix s.transmitted_length
  | emitLatch hi hready => exact hs.of_same_store (by simp) (by simp)
  | wireUnit b hi hready => exact hs.of_same_store rfl rfl

/-! ### Control -/

/-- Nothing is in progress: what every command starts and ends with (R18, R21). -/
def State.Idle (s : State) : Prop := s.running = none ∧ s.txc = Txc.idle ∧ s.settleRunning = false

theorem Effect.idle {s t : State} {i : Instr} (h : Effect s i t) (hs : s.Idle) : t.Idle := by
  cases h with
  | respond w hi => exact hs
  | write hi hwrite =>
    rw [hwrite.frame]
    exact hs
  | resize n hi => simpa [State.Idle] using hs
  | construct k n hi => simpa [State.Idle] using hs
  | select k hi => simpa [State.Idle] using hs
  | unavailable hi hnone => exact hs
  | activate evs hi hsome => exact ⟨rfl, rfl, rfl⟩
  | transmit hi hready => exact ⟨rfl, rfl, rfl⟩
  | emitLatch hi hready => exact ⟨rfl, rfl, rfl⟩
  | wireUnit b hi hready => exact hs

/-- No instruction changes the parameters or the port. -/
theorem Effect.cfg_port {s t : State} {i : Instr} (h : Effect s i t) : t.cfg = s.cfg ∧ t.port = s.port := by
  cases h with
  | respond w hi => exact ⟨rfl, rfl⟩
  | write hi hwrite =>
    rw [hwrite.frame]
    exact ⟨rfl, rfl⟩
  | resize n hi => simp
  | construct k n hi => simp
  | select k hi => simp
  | unavailable hi hnone => exact ⟨rfl, rfl⟩
  | activate evs hi hsome => simp
  | transmit hi hready => simp
  | emitLatch hi hready => simp
  | wireUnit b hi hready => exact ⟨rfl, rfl⟩

/-- FSM and BACKEND agree (R12, R89): no backend exactly in Uninitialized, and Active on the native backend only where
it is present. -/
def State.Selected (s : State) : Prop :=
  (s.fsm = .uninitialized ↔ s.backend = .none)
    ∧ (s.fsm = .active → s.backend = .native → s.cfg.nativePresent = true)

/-- An effect moves FSM and BACKEND in one of three ways: not at all, by a selection, by an activation. -/
theorem Effect.fsm_backend {s t : State} {i : Instr} (h : Effect s i t) :
    (t.fsm = s.fsm ∧ t.backend = s.backend)
      ∨ (t.fsm = .configured ∧ t.backend ≠ .none)
      ∨ (∃ evs, s.enableEvents = some evs) ∧ t.fsm = .active ∧ t.backend = s.backend := by
  cases h with
  | respond w hi => exact .inl ⟨rfl, rfl⟩
  | write hi hwrite =>
    rw [hwrite.frame]
    exact .inl ⟨rfl, rfl⟩
  | resize n hi => exact .inl ⟨by simp, by simp⟩
  | construct k n hi =>
    refine .inr (.inl ⟨by simp, ?_⟩)
    obtain ⟨-, rfl⟩ | ⟨_, _, _, -, rfl⟩ := hi <;> simp
  | select k hi =>
    refine .inr (.inl ⟨by simp, ?_⟩)
    obtain ⟨-, rfl⟩ | ⟨_, _, _, -, rfl⟩ := hi <;> simp
  | unavailable hi hnone => exact .inl ⟨rfl, rfl⟩
  | activate evs hi hsome => exact .inr (.inr ⟨⟨evs, hsome⟩, by simp, by simp⟩)
  | transmit hi hready => exact .inl ⟨s.transmitted_fsm, s.transmitted_backend⟩
  | emitLatch hi hready => exact .inl ⟨by simp, by simp⟩
  | wireUnit b hi hready => exact .inl ⟨rfl, rfl⟩

theorem Effect.selected {s t : State} {i : Instr} (h : Effect s i t) (hs : s.Selected) : t.Selected := by
  unfold State.Selected
  rw [h.cfg_port.1]
  obtain ⟨hfsm, hb⟩ | ⟨hfsm, hb⟩ | ⟨⟨evs, hsome⟩, hfsm, hb⟩ := h.fsm_backend
  · rwa [hfsm, hb]
  · simp [hfsm, hb]
  · obtain ⟨-, ⟨hnative, hpresent, -⟩ | ⟨d, c, slow, hmanual, -⟩⟩ := State.enableEvents_cases s evs hsome
    · simp [hfsm, hb, hnative, hpresent]
    · simp [hfsm, hb, hmanual]

theorem controlInv_iff (s : State) : ControlInv s ↔ s.Idle ∧ s.Selected := by
  simp only [State.Idle, State.Selected, and_assoc]

theorem Effect.controlInv {s t : State} {i : Instr} (h : Effect s i t) (hs : ControlInv s) : ControlInv t := by
  rw [controlInv_iff] at hs ⊢
  exact ⟨h.idle hs.1, h.selected hs.2⟩

/-! ### The lines -/

/-- Sending bytes on whichever backend switches nothing on or off, and leaves a low clock low. -/
theorem Lines.foldl_flatMap_byteEvents (l : Lines) (k : Backend) (bs : List Byte) :
    ((bs.flatMap (byteEvents k)).foldl Lines.after l).drive = l.drive
      ∧ ((bs.flatMap (byteEvents k)).foldl Lines.after l).nativeOn = l.nativeOn
      ∧ (l.clk = false → ((bs.flatMap (byteEvents k)).foldl Lines.after l).clk = false) := by
  cases k with
  | none =>
    have hnone : bs.flatMap (byteEvents .none) = [] := List.flatMap_eq_nil_iff.mpr fun _ _ => rfl
    rw [hnone]
    exact ⟨rfl, rfl, id⟩
  | native =>
    rw [Lines.foldl_native]
    exact ⟨rfl, rfl, id⟩
  | manual d c slow => exact Lines.foldl_manual_bytes l d c slow bs

/-- Sending keeps the lines as the state says: FSM and BACKEND stay, and only DAT and CLK move. -/
theorem LinesInv.of_sent {s t : State} (h : LinesInv s) (bs : List Byte) (hfsm : t.fsm = s.fsm)
    (hb : t.backend = s.backend) (hlines : t.lines = (bs.flatMap (byteEvents s.backend)).foldl Lines.after s.lines) :
    LinesInv t := by
  obtain ⟨hdrive, hnative, hclk⟩ := Lines.foldl_flatMap_byteEvents s.lines s.backend bs
  rw [← hlines] at hdrive hnative hclk
  obtain ⟨h₁, h₂, h₃⟩ := h
  unfold LinesInv
  rw [hfsm, hb, hdrive, hnative]
  exact ⟨h₁, h₂, fun hd => hclk (h₃ hd)⟩

theorem LinesInv.of_same {s t : State} (h : LinesInv s) (hfsm : t.fsm = s.fsm) (hb : t.backend = s.backend)
    (hlines : t.lines = s.lines) : LinesInv t :=
  h.of_sent [] hfsm hb hlines

/-- Selection leaves both outputs off: the quiesce turns off whichever was on. -/
theorem LinesInv.select_off {s : State} (h : LinesInv s) (k : Backend) :
    (s.select k).lines.drive = false ∧ (s.select k).lines.nativeOn = false := by
  obtain ⟨hdrive, hnative, -⟩ := h
  obtain ⟨hkeep, hsel⟩ | ⟨-, hb, hsel⟩ | ⟨-, d, c, slow, hb, hsel⟩ := State.select_cases k s
  · rw [hsel]
    constructor
    · rw [← Bool.not_eq_true, hdrive]
      rintro ⟨hfsm, hmanual⟩
      obtain hne | hb := hkeep
      · exact hne hfsm
      · simp [hb, Backend.isManual] at hmanual
    · rw [← Bool.not_eq_true, hnative]
      rintro ⟨hfsm, hbn⟩
      obtain hne | hb := hkeep
      · exact hne hfsm
      · simp [hb] at hbn
  · have hoff : s.lines.drive = false := by
      rw [← Bool.not_eq_true, hdrive, hb]
      simp [Backend.isManual]
    simp [hsel, Lines.after, hoff]
  · have hoff : s.lines.nativeOn = false := by
      rw [← Bool.not_eq_true, hnative, hb]
      simp
    simp [hsel, Lines.after, hoff]

/-- In Configured both outputs are off. -/
theorem linesInv_of_configured {t : State} (hfsm : t.fsm = .configured) (hdrive : t.lines.drive = false)
    (hnative : t.lines.nativeOn = false) : LinesInv t := by
  simp [LinesInv, hfsm, hdrive, hnative]

/-- Enabling turns on the output of the backend and no other. -/
theorem LinesInv.enable {s : State} {evs : List Event} (h : LinesInv s) (hsome : s.enableEvents = some evs) :
    LinesInv (s.enable evs) := by
  obtain ⟨hdrive, hnative, hclk⟩ := h
  obtain ⟨-, ⟨hb, -, rfl⟩ | ⟨d, c, slow, hb, rfl⟩⟩ := State.enableEvents_cases s evs hsome
  · have hoff : s.lines.drive = false := by
      rw [← Bool.not_eq_true, hdrive, hb]
      simp [Backend.isManual]
    simp [LinesInv, Lines.after, hb, hoff, Backend.isManual]
  · have hoff : s.lines.nativeOn = false := by
      rw [← Bool.not_eq_true, hnative, hb]
      simp
    simp [LinesInv, Lines.after, hb, hoff, Backend.isManual]

theorem Effect.linesInv {s t : State} {i : Instr} (h : Effect s i t) (hs : LinesInv s) : LinesInv t := by
  cases h with
  | respond w hi => exact hs
  | write hi hwrite =>
    rw [hwrite.frame]
    exact hs
  | resize n hi => exact hs.of_same (State.newStore_fsm n s) (State.newStore_backend n s) (State.newStore_lines n s)
  | construct k n hi =>
    obtain ⟨hdrive, hnative⟩ := hs.select_off k
    exact linesInv_of_configured (by simp) (by simpa using hdrive) (by simpa using hnative)
  | select k hi =>
    obtain ⟨hdrive, hnative⟩ := hs.select_off k
    exact linesInv_of_configured (by simp) (by simpa using hdrive) (by simpa using hnative)
  | unavailable hi hnone => exact hs
  | activate evs hi hsome =>
    exact (hs.enable hsome).of_sent s.latchBytes (by simp) (by simp) (by simp [State.activated])
  | transmit hi hready =>
    exact hs.of_sent s.frameBytes s.transmitted_fsm s.transmitted_backend
      (by simp [State.transmitted, State.frameBytes])
  | emitLatch hi hready =>
    exact hs.of_sent s.latchBytes s.latched_fsm s.latched_backend (by simp [State.latched])
  | wireUnit b hi hready => exact hs.of_sent [b] rfl rfl (by simp)

/-! ### The wire -/

/-- What may stand on the wire (R64): a latch byte, or a byte with bit 7 set. -/
def WireByte (b : Byte) : Prop := b = 0x00#8 ∨ b.getLsbD 7 = true

theorem wireByte_of_mem_latchBytes {s : State} {b : Byte} (h : b ∈ s.latchBytes) : WireByte b :=
  .inl (List.eq_of_mem_replicate h)

/-- Every address reads as a byte with bit 7 set: a cell of the store is marked, and an unlisted address is off. -/
theorem StoreInv.getLsbD_read {s : State} (h : StoreInv s) (a : Nat) : (s.pix.read a).getLsbD 7 = true := by
  unfold Memory.read
  cases hlook : s.pix.lookup a with
  | none => exact getLsbD_offByte
  | some b =>
    obtain ⟨-, -, hmark⟩ := h
    obtain ⟨l₁, l₂, hpix, -⟩ := List.lookup_eq_some_iff.mp hlook
    exact hmark (a, b) (by simp [hpix])

theorem StoreInv.wireByte_of_mem_frameBytes {s : State} (h : StoreInv s) {b : Byte} (hb : b ∈ s.frameBytes) :
    WireByte b := by
  obtain hcolour | hlatch := List.mem_append.mp hb
  · obtain ⟨a, -, rfl⟩ := List.mem_map.mp hcolour
    exact .inr (h.getLsbD_read a)
  · exact wireByte_of_mem_latchBytes hlatch

/-- An instruction sends nothing but latch bytes and marked bytes (R64). -/
theorem StoreInv.wireByte_of_mem_sentBytes {s : State} (h : StoreInv s) {i : Instr} {b : Byte}
    (hb : b ∈ sentBytes i s) : WireByte b := by
  cases i
  case activate =>
    rw [sentBytes] at hb
    split at hb
    · exact wireByte_of_mem_latchBytes hb
    · cases hb
  case transmit => exact h.wireByte_of_mem_frameBytes hb
  case emitLatch => exact wireByte_of_mem_latchBytes hb
  case colourByte x =>
    obtain rfl := List.mem_singleton.mp hb
    right
    rw [colourByteOf, BitVec.getLsbD_append]
    rfl
  case latchByte => exact .inl (List.mem_singleton.mp hb)
  all_goals cases hb

theorem wireInv_of_exec {s t : State} {i : Instr} (h : exec i s = .next t) (hstore : StoreInv s) (hs : WireInv s) :
    WireInv t := by
  obtain ⟨hwhole, hbytes⟩ := hs
  obtain ⟨hsent, hwhole'⟩ := wireBytes_of_exec hwhole h
  refine ⟨hwhole', fun b hb => ?_⟩
  rw [hsent] at hb
  obtain hold | hnew := List.mem_append.mp hb
  · exact hbytes b hold
  · exact hstore.wireByte_of_mem_sentBytes hnew

/-! ### The whole invariant -/

theorem machineInv_of_exec {s t : State} {i : Instr} (h : exec i s = .next t) (hs : MachineInv s) : MachineInv t := by
  obtain ⟨hstore, hcontrol, hlines, hwire⟩ := hs
  have heffect : Effect s i t := effect_of_exec h
  exact ⟨heffect.storeInv hstore, heffect.controlInv hcontrol, heffect.linesInv hlines, wireInv_of_exec h hstore hwire⟩

/-- What a step between commands can be: waiting, or an instruction executed once its unit has left the port. -/
theorem step_cases_of_idle {s t : State} (hidle : s.running = none) (h : step s = .next t) :
    t = s ∨ ∃ p rest i, s.port = p :: rest ∧ exec i { s with port := rest } = .next t := by
  cases hport : s.port with
  | nil =>
    cases (step_of_port_nil hidle hport).symm.trans h
    exact .inl rfl
  | cons p rest =>
    rw [step_of_port_cons hidle hport] at h
    cases hdecode : decode p with
    | error e =>
      rw [State.accept_of_decode_error _ hdecode] at h
      cases h
    | ok i =>
      rw [State.accept_of_decode_ok _ hdecode] at h
      exact .inr ⟨p, rest, i, rfl, h⟩

/-- Settles O47: a step in the invariant has no command in progress, so it waits or executes an instruction; and the
invariant does not speak of the port. -/
theorem stepKeepsMachineInvariant : Obligations.StepKeepsMachineInvariant := by
  intro s t hs h
  have hidle : s.running = none := hs.2.1.1
  obtain rfl | ⟨p, rest, i, -, hexec⟩ := step_cases_of_idle hidle h
  · exact hs
  · exact machineInv_of_exec hexec hs

/-- Settles O48: nothing is stored, selected, driven or sent at reset. -/
theorem resetMeetsMachineInvariant : Obligations.ResetMeetsMachineInvariant := by
  intro c
  refine ⟨storeInv_of_pix_nil rfl, ?_, ?_, ?_⟩
  · simp [ControlInv, State.resetWith]
  · simp [LinesInv, State.resetWith]
  · simp [WireInv, State.resetWith, wireBytes, wireBits, wireBitsFrom, bytesOfBits]

end Sys2Proof.Machine

/-! The transmit cursor (R18, R21, D17) in an execution split at its positions: the ranges that every step keeps, and
what a step leaves alone. -/

namespace Sys2Proof.Machine

/-! ### The ranges of the cursor -/

theorem cursorInv_of_idle {s : State} (h : s.Idle) : CursorInv s := by
  obtain ⟨hrun, htxc, hsettle⟩ := h
  simp [CursorInv, hrun, htxc, hsettle, Txc.idle]

/-- Between commands the invariant says that nothing is in progress. -/
theorem CursorInv.idle {s : State} (h : CursorInv s) (hrun : s.running = none) : s.Idle := by
  obtain ⟨-, -, -, -, hidle, hsettle, hnone⟩ := h
  have hphase : s.txc.phase = .idle := hnone.mp hrun
  refine ⟨hrun, hidle hphase, ?_⟩
  rw [← Bool.not_eq_true, hsettle, hphase]
  simp

theorem cursorInv_finish (s : State) : CursorInv s.finish := cursorInv_of_idle ⟨rfl, rfl, rfl⟩

/-- A command is in progress and has not reached its settle delay. -/
def State.Sending (s : State) : Prop := s.running ≠ none ∧ s.settleRunning = false

/-- The cursor stands at a byte of its phase. -/
def State.InPhase (s : State) : Prop :=
  (s.txc.phase = .colour ∧ s.txc.byteIx.toNat < s.storeSize)
    ∨ (s.txc.phase = .latch ∧ s.txc.byteIx.toNat < latchLen s.length)

theorem cursorInv_of_inPhase {s : State} (hsend : s.Sending) (hphase : s.InPhase)
    (hbit : s.backend = .native → s.txc.bitIx = 0) : CursorInv s := by
  obtain ⟨hrun, hsettle⟩ := hsend
  obtain ⟨hphase, hbyte⟩ | ⟨hphase, hbyte⟩ := hphase <;>
    simpa [CursorInv, hphase, hbyte, hrun, hsettle] using hbit

/-- The bit index at the start of a byte is 0 on the native backend (R18). -/
theorem firstBit_of_native {k : Backend} (h : k = .native) : firstBit k = 0 := by rw [h, firstBit]

section
variable {s : State} (hsend : s.Sending) (c : Running)
include hsend

theorem cursorInv_leaveLatch : CursorInv (s.leaveLatch c) := by
  cases c with
  | transmit => simp [State.leaveLatch, CursorInv, hsend.1]
  | activate => exact cursorInv_finish s
  | emitLatch => exact cursorInv_finish s

theorem cursorInv_enterLatch : CursorInv (s.enterLatch c) := by
  unfold State.enterLatch
  split
  · exact cursorInv_leaveLatch hsend c
  · rename_i hlatch
    exact cursorInv_of_inPhase hsend (.inr ⟨rfl, Nat.pos_of_ne_zero hlatch⟩) firstBit_of_native

theorem cursorInv_enterColour : CursorInv (s.enterColour c) := by
  unfold State.enterColour
  split
  · exact cursorInv_enterLatch hsend c
  · rename_i hlength
    have hpos : 0 < s.length.toNat := BitVec.toNat_pos_of_ne_zero hlength
    have hsize : 0 < s.storeSize := by
      unfold State.storeSize
      omega
    exact cursorInv_of_inPhase hsend (.inl ⟨rfl, hsize⟩) firstBit_of_native

/-- The next byte of a phase is inside it, and 18 bits hold its index. -/
theorem cursorInv_nextByte : CursorInv (s.nextByte c) := by
  have hsucc {n : Nat} (hle : n ≤ 196605) (hlt : s.txc.byteIx.toNat + 1 < n) : (s.txc.byteIx + 1).toNat < n := by
    rw [BitVec.toNat_add]
    exact lt_of_le_of_lt (Nat.mod_le _ _) hlt
  unfold State.nextByte
  split
  · split
    · rename_i hlt
      exact cursorInv_of_inPhase hsend (.inl ⟨rfl, hsucc (storeSize_le s) hlt⟩) firstBit_of_native
    · exact cursorInv_enterLatch hsend c
  · split
    · rename_i hlt
      have hle : latchLen s.length ≤ 196605 := (latchLen_le s.length).trans (by decide)
      exact cursorInv_of_inPhase hsend (.inr ⟨rfl, hsucc hle hlt⟩) firstBit_of_native
    · exact cursorInv_leaveLatch hsend c
  · exact cursorInv_finish s
  · exact cursorInv_finish s

theorem cursorInv_sendAtCursor (hphase : s.InPhase) (b : Byte) : CursorInv (s.sendAtCursor c b) := by
  have hemit (evs : List Event) : (s.emit evs).Sending := hsend
  unfold State.sendAtCursor
  split
  · exact cursorInv_nextByte hsend c
  · exact cursorInv_nextByte (hemit _) c
  · rename_i hb
    split
    · exact cursorInv_nextByte (hemit _) c
    · exact cursorInv_of_inPhase (by exact hsend) hphase fun hnative => by simp [hb] at hnative

end

/-- A cursor in its ranges stays there when a command in progress moves on by one position. -/
theorem cursorInv_cursorStep {s : State} {c : Running} (h : CursorInv s) (hrun : s.running = some c) :
    CursorInv (s.cursorStep c) := by
  obtain ⟨hcolour, hlatch, -, -, -, hsettle, -⟩ := h
  have hsending (hphase : s.txc.phase ≠ .settle) : s.Sending :=
    ⟨by simp [hrun], by rw [← Bool.not_eq_true, hsettle]; exact hphase⟩
  unfold State.cursorStep
  split
  · rename_i hphase
    exact cursorInv_sendAtCursor (hsending (by simp [hphase])) c (.inl ⟨hphase, hcolour hphase⟩) _
  · rename_i hphase
    exact cursorInv_sendAtCursor (hsending (by simp [hphase])) c (.inr ⟨hphase, hlatch hphase⟩) _
  · exact cursorInv_finish s
  · exact cursorInv_finish s

theorem step_of_running {s : State} {c : Running} (h : s.running = some c) : step s = .next (s.cursorStep c) := by
  simp only [step, h]

/-- Settles O49: a command in progress moves on inside its ranges, and between commands every instruction leaves the
cursor idle. -/
theorem stepKeepsCursorInRange : Obligations.StepKeepsCursorInRange := by
  intro s t hs h
  cases hrun : s.running with
  | some c =>
    cases (step_of_running hrun).symm.trans h
    exact cursorInv_cursorStep hs hrun
  | none =>
    obtain rfl | ⟨p, rest, i, -, hexec⟩ := step_cases_of_idle hrun h
    · exact hs
    · exact cursorInv_of_idle ((effect_of_exec hexec).idle (hs.idle hrun))

/-- Settles O50: a command that has been started is sending, and stands at its first position. -/
theorem cursorStartsInRange : Obligations.CursorStartsInRange := by
  refine ⟨fun c => cursorInv_of_idle ⟨rfl, rfl, rfl⟩, fun c s t hs hrun h => ?_⟩
  obtain ⟨-, -, hsettle⟩ := hs.idle hrun
  have hsending (c : Running) : State.Sending { s with running := some c } := ⟨nofun, hsettle⟩
  cases c with
  | activate =>
    simp only [State.beginCommand] at h
    split at h
    · cases h
      exact hs
    · cases h
      exact cursorInv_enterLatch (by exact hsending .activate) .activate
  | transmit =>
    rw [State.beginCommand] at h
    obtain ⟨-, rfl⟩ := eq_send_of_throughActiveBackend h
    exact cursorInv_enterColour (hsending .transmit) .transmit
  | emitLatch =>
    rw [State.beginCommand] at h
    obtain ⟨-, rfl⟩ := eq_send_of_throughActiveBackend h
    exact cursorInv_enterLatch (hsending .emitLatch) .emitLatch

/-! ### What a step leaves alone -/

/-- From `s` to `t` the wire has been appended to, and the parameters and the port have stayed. -/
def OnlyAppends (s t : State) : Prop := (∃ evs, t.wire = s.wire ++ evs) ∧ t.cfg = s.cfg ∧ t.port = s.port

theorem OnlyAppends.of_same {s t : State} (hwire : t.wire = s.wire) (hcfg : t.cfg = s.cfg) (hport : t.port = s.port) :
    OnlyAppends s t := ⟨⟨[], by rw [hwire, List.append_nil]⟩, hcfg, hport⟩

theorem OnlyAppends.trans {s t u : State} (h : OnlyAppends s t) (h' : OnlyAppends t u) : OnlyAppends s u := by
  obtain ⟨⟨evs, hwire⟩, hcfg, hport⟩ := h
  obtain ⟨⟨evs', hwire'⟩, hcfg', hport'⟩ := h'
  exact ⟨⟨evs ++ evs', by rw [hwire', hwire, List.append_assoc]⟩, hcfg'.trans hcfg, hport'.trans hport⟩

theorem onlyAppends_emit (evs : List Event) (s : State) : OnlyAppends s (s.emit evs) := ⟨⟨evs, rfl⟩, rfl, rfl⟩

theorem onlyAppends_leaveLatch (c : Running) (s : State) : OnlyAppends s (s.leaveLatch c) := by
  cases c
  · exact .of_same rfl rfl rfl
  · exact ⟨⟨_, rfl⟩, rfl, rfl⟩
  · exact .of_same rfl rfl rfl

theorem onlyAppends_enterLatch (c : Running) (s : State) : OnlyAppends s (s.enterLatch c) := by
  unfold State.enterLatch
  split
  · exact onlyAppends_leaveLatch c s
  · exact .of_same rfl rfl rfl

theorem onlyAppends_nextByte (c : Running) (s : State) : OnlyAppends s (s.nextByte c) := by
  unfold State.nextByte
  split
  · split
    · exact .of_same rfl rfl rfl
    · exact onlyAppends_enterLatch c s
  · split
    · exact .of_same rfl rfl rfl
    · exact onlyAppends_leaveLatch c s
  · exact .of_same rfl rfl rfl
  · exact .of_same rfl rfl rfl

theorem onlyAppends_sendAtCursor (c : Running) (b : Byte) (s : State) : OnlyAppends s (s.sendAtCursor c b) := by
  unfold State.sendAtCursor
  split
  · exact onlyAppends_nextByte c s
  · exact (onlyAppends_emit _ s).trans (onlyAppends_nextByte c _)
  · split
    · exact (onlyAppends_emit _ s).trans (onlyAppends_nextByte c _)
    · exact ⟨⟨_, rfl⟩, rfl, rfl⟩

theorem onlyAppends_cursorStep (c : Running) (s : State) : OnlyAppends s (s.cursorStep c) := by
  unfold State.cursorStep
  split
  · exact onlyAppends_sendAtCursor c _ s
  · exact onlyAppends_sendAtCursor c _ s
  · exact .of_same rfl rfl rfl
  · exact .of_same rfl rfl rfl

theorem onlyAppends_of_exec {i : Instr} {s t : State} (h : exec i s = .next t) : OnlyAppends s t := by
  obtain ⟨evs, hwire, -⟩ := (effect_of_exec h).sends
  exact ⟨⟨evs, hwire⟩, (effect_of_exec h).cfg_port⟩

/-- Settles O45: a cursor step and an instruction only append; the unit that an instruction comes from has left the
port. -/
theorem stepOnlyAppendsToWire : Obligations.StepOnlyAppendsToWire := by
  intro s t h
  cases hrun : s.running with
  | some c =>
    cases (step_of_running hrun).symm.trans h
    obtain ⟨hwire, hcfg, hport⟩ := onlyAppends_cursorStep c s
    exact ⟨hwire, hcfg, .inl hport⟩
  | none =>
    obtain rfl | ⟨p, rest, i, hport, hexec⟩ := step_cases_of_idle hrun h
    · exact ⟨⟨[], (List.append_nil _).symm⟩, rfl, .inl rfl⟩
    · obtain ⟨hwire, hcfg, hport'⟩ := onlyAppends_of_exec hexec
      exact ⟨hwire, hcfg, .inr (by rw [hport', hport, List.tail_cons])⟩

end Sys2Proof.Machine

/-! The execution split at the cursor's positions (R18, log 7) and the atomic one. A byte takes one step on the native
backend and eight on the manual one; a phase is its bytes one after the other; a command is its phases. Each level says
which state the steps reach, in the operations of the atomic command. -/

namespace Sys2Proof.Machine

/-! ### Reaching a state -/

/-- Some number of steps leads from `s` to `t`. -/
def Reaches (s t : State) : Prop := ∃ n, Host.Core.run Sys2Proof.core n s = .next t

theorem Reaches.refl (s : State) : Reaches s s := ⟨0, rfl⟩

theorem Reaches.of_step {s t u : State} (h : step s = .next t) (h' : Reaches t u) : Reaches s u := by
  obtain ⟨n, hn⟩ := h'
  refine ⟨n + 1, ?_⟩
  have hcore : Sys2Proof.core.step s = .next t := h
  simp only [Host.Core.run, hcore, hn]

theorem Reaches.of_running {s u : State} {c : Running} (h : s.running = some c) (h' : Reaches (s.cursorStep c) u) :
    Reaches s u := .of_step (step_of_running h) h'

theorem Reaches.trans {s t u : State} (h : Reaches s t) (h' : Reaches t u) : Reaches s u := by
  obtain ⟨n, hn⟩ := h
  induction n generalizing s with
  | zero =>
    cases hn
    exact h'
  | succ n ih =>
    simp only [Host.Core.run] at hn
    split at hn
    · rename_i v hstep
      exact .of_step hstep (ih hn)
    · cases hn
    · cases hn

/-! ### One byte -/

/-- The cursor with another bit index. -/
def State.withBitIx (s : State) (k : BitVec 3) : State := { s with txc := { s.txc with bitIx := k } }

theorem State.leaveLatch_withTxc (c : Running) (s : State) (x : Txc) :
    State.leaveLatch c { s with txc := x } = s.leaveLatch c := by
  cases c <;> rfl

theorem State.enterLatch_withTxc (c : Running) (s : State) (x : Txc) :
    State.enterLatch c { s with txc := x } = s.enterLatch c := by
  unfold State.enterLatch
  rw [State.leaveLatch_withTxc]

/-- Where the cursor goes after a byte does not depend on its bit index. -/
theorem State.nextByte_withBitIx (c : Running) (s : State) (k : BitVec 3) :
    (s.withBitIx k).nextByte c = s.nextByte c := by
  unfold State.nextByte State.withBitIx
  simp only [State.enterLatch_withTxc, State.leaveLatch_withTxc]
  rfl

/-- A command `c` is in progress and its cursor stands at the byte `b`. -/
def State.AtByte (s : State) (c : Running) (b : Byte) : Prop :=
  s.running = some c
    ∧ ((s.txc.phase = .colour ∧ s.pix.read s.txc.byteIx.toNat = b) ∨ (s.txc.phase = .latch ∧ 0x00#8 = b))

theorem State.AtByte.cursorStep {s : State} {c : Running} {b : Byte} (h : s.AtByte c b) :
    s.cursorStep c = s.sendAtCursor c b := by
  obtain ⟨-, ⟨hphase, hbyte⟩ | ⟨hphase, hbyte⟩⟩ := h <;> simp only [State.cursorStep, hphase, hbyte]

/-- Sending at the cursor on the manual backend: one bit (R101, R102). -/
theorem State.sendAtCursor_of_manual {s : State} {d k : Byte} {slow : Bool} (hb : s.backend = .manual d k slow)
    (c : Running) (b : Byte) :
    s.sendAtCursor c b = if s.txc.bitIx = 0 then (s.emit (bitEvents (b.getLsbD s.txc.bitIx.toNat))).nextByte c
      else (s.emit (bitEvents (b.getLsbD s.txc.bitIx.toNat))).withBitIx (s.txc.bitIx - 1) := by
  unfold State.sendAtCursor
  split
  · rename_i hnone
    cases hnone.symm.trans hb
  · rename_i hnative
    cases hnative.symm.trans hb
  · rfl

/-- The bits of a byte from bit `k` down to bit 0. -/
def bitsFrom (b : Byte) : Nat → List Bool
  | 0 => [b.getLsbD 0]
  | k + 1 => b.getLsbD (k + 1) :: bitsFrom b k

theorem bitsFrom_seven (b : Byte) : bitsFrom b 7 = bitsMsbFirst b := rfl

theorem State.AtByte.emit {s : State} {c : Running} {b : Byte} (h : s.AtByte c b) (evs : List Event) (k : BitVec 3) :
    ((s.emit evs).withBitIx k).AtByte c b := h

/-- On the manual backend the cursor clocks the bits from its bit index down to 0, one a step (R101, R102), and then
goes to the next byte. -/
theorem reaches_bits {s : State} {c : Running} {b d k : Byte} {slow : Bool} (n : Nat) (hn : n < 8)
    (hb : s.backend = .manual d k slow) (hat : s.AtByte c b) (hbit : s.txc.bitIx = BitVec.ofNat 3 n) :
    Reaches s ((s.emit ((bitsFrom b n).flatMap bitEvents)).nextByte c) := by
  induction n generalizing s with
  | zero =>
    have hstep : s.cursorStep c = (s.emit ((bitsFrom b 0).flatMap bitEvents)).nextByte c := by
      rw [hat.cursorStep, State.sendAtCursor_of_manual hb, hbit]
      simp [bitsFrom]
    exact .of_running hat.1 (hstep ▸ Reaches.refl _)
  | succ n ih =>
    have hindex : (BitVec.ofNat 3 (n + 1)).toNat = n + 1 := by
      rw [BitVec.toNat_ofNat]
      exact Nat.mod_eq_of_lt hn
    have hne : BitVec.ofNat 3 (n + 1) ≠ 0 := fun h => by simp [h] at hindex
    have hpred : BitVec.ofNat 3 (n + 1) - 1 = BitVec.ofNat 3 n := by
      rw [BitVec.ofNat_add]
      exact BitVec.add_sub_cancel _ _
    have hstep : s.cursorStep c = (s.emit (bitEvents (b.getLsbD (n + 1)))).withBitIx (BitVec.ofNat 3 n) := by
      rw [hat.cursorStep, State.sendAtCursor_of_manual hb, hbit, if_neg hne, hindex, hpred]
    have hrest := ih (s := (s.emit (bitEvents (b.getLsbD (n + 1)))).withBitIx (BitVec.ofNat 3 n)) (by omega) hb
      (hat.emit _ _) rfl
    refine .of_running hat.1 ?_
    rw [hstep]
    have hnext : (((s.emit (bitEvents (b.getLsbD (n + 1)))).withBitIx (BitVec.ofNat 3 n)).emit
        ((bitsFrom b n).flatMap bitEvents)).nextByte c
          = (s.emit ((bitsFrom b (n + 1)).flatMap bitEvents)).nextByte c := by
      rw [bitsFrom, List.flatMap_cons, ← State.emit_emit]
      exact State.nextByte_withBitIx c ((s.emit _).emit _) (BitVec.ofNat 3 n)
    exact hnext ▸ hrest

/-- From the start of a byte the steps send it and go to the next one, on either backend. -/
theorem reaches_nextByte {s : State} {c : Running} {b : Byte} (hb : s.backend ≠ .none) (hat : s.AtByte c b)
    (hbit : s.txc.bitIx = firstBit s.backend) : Reaches s ((s.emitByte b).nextByte c) := by
  cases hk : s.backend with
  | none => exact absurd hk hb
  | native =>
    have hstep : s.cursorStep c = (s.emitByte b).nextByte c := by
      rw [hat.cursorStep, State.sendAtCursor]
      simp only [hk, State.emitByte, byteEvents]
    exact .of_running hat.1 (hstep ▸ Reaches.refl _)
  | manual d k slow =>
    have hevents : s.emitByte b = s.emit ((bitsFrom b 7).flatMap bitEvents) := by
      rw [State.emitByte, hk, byteEvents, bitsFrom_seven]
    rw [hevents]
    exact reaches_bits 7 (by decide) hk hat (by rw [hbit, hk]; rfl)

/-! ### One phase

The colour and the latch phase differ in their size, their bytes and what follows them. -/

/-- How many bytes a phase sends (R18). -/
def phaseSize (s : State) : Phase → Nat
  | .colour => s.storeSize
  | .latch => latchLen s.length
  | .settle => 0
  | .idle => 0

/-- The byte a phase sends at a position (R18). -/
def phaseByte (s : State) : Phase → Nat → Byte
  | .colour, j => s.pix.read j
  | _, _ => 0x00#8

/-- Where the cursor goes after a phase (R18). -/
def leavePhase (c : Running) (s : State) : Phase → State
  | .colour => s.enterLatch c
  | .latch => s.leaveLatch c
  | .settle => s.finish
  | .idle => s.finish

/-- The cursor at the start of byte `j` of a phase. -/
def State.atPosition (s : State) (ph : Phase) (j : Nat) : State :=
  { s with txc := { phase := ph, byteIx := BitVec.ofNat 18 j, bitIx := firstBit s.backend } }

section
variable {ph : Phase} (hph : ph = .colour ∨ ph = .latch)
include hph

theorem phaseSize_le (s : State) : phaseSize s ph ≤ 196605 := by
  obtain rfl | rfl := hph
  · exact storeSize_le s
  · exact (latchLen_le s.length).trans (by decide)

/-- The 18 bits of the byte index hold every position of a phase (R18). -/
theorem toNat_position (s : State) {j : Nat} (hj : j < phaseSize s ph) : (BitVec.ofNat 18 j).toNat = j := by
  have hle : phaseSize s ph ≤ 196605 := phaseSize_le hph s
  rw [BitVec.toNat_ofNat]
  exact Nat.mod_eq_of_lt (by omega)

/-- After the last byte of a phase comes what follows it, after any other byte the next one. -/
theorem nextByte_atPosition (c : Running) (s : State) {j : Nat} (hj : j < phaseSize s ph) :
    (s.atPosition ph j).nextByte c
      = if j + 1 < phaseSize s ph then s.atPosition ph (j + 1) else leavePhase c s ph := by
  have hbyte : (BitVec.ofNat 18 j).toNat = j := toNat_position hph s hj
  obtain rfl | rfl := hph
  · have hleave : (s.atPosition .colour j).enterLatch c = s.enterLatch c := State.enterLatch_withTxc c s _
    rw [leavePhase, ← hleave]
    simp only [State.nextByte, State.atPosition, hbyte, BitVec.ofNat_add]
    rfl
  · have hleave : (s.atPosition .latch j).leaveLatch c = s.leaveLatch c := State.leaveLatch_withTxc c s _
    rw [leavePhase, ← hleave]
    simp only [State.nextByte, State.atPosition, hbyte, BitVec.ofNat_add]
    rfl

/-- One byte of a phase, from its start to the start of what comes next. -/
theorem reaches_byte_of_phase {c : Running} {s : State} {j : Nat} (hrun : s.running = some c) (hb : s.backend ≠ .none)
    (hj : j < phaseSize s ph) :
    Reaches (s.atPosition ph j) (((s.emitByte (phaseByte s ph j)).atPosition ph j).nextByte c) := by
  have hbyte : (BitVec.ofNat 18 j).toNat = j := toNat_position hph s hj
  have hat : (s.atPosition ph j).AtByte c (phaseByte s ph j) := by
    refine ⟨hrun, ?_⟩
    obtain rfl | rfl := hph
    · left
      simp only [State.atPosition, phaseByte, hbyte, and_self]
    · exact .inr ⟨rfl, rfl⟩
  exact reaches_nextByte hb hat rfl

/-- The bytes of a phase from position `j` on, by induction on how many are left. -/
theorem reaches_leavePhase {c : Running} (m : Nat) {s : State} {j : Nat} (hrun : s.running = some c)
    (hb : s.backend ≠ .none) (hsize : j + (m + 1) = phaseSize s ph) :
    Reaches (s.atPosition ph j)
      (leavePhase c (s.emitBytes ((List.range' j (m + 1)).map (phaseByte s ph))) ph) := by
  have hsize' (s : State) (b : Byte) : phaseSize (s.emitByte b) ph = phaseSize s ph := by cases ph <;> rfl
  induction m generalizing s j with
  | zero =>
    have hbyte := reaches_byte_of_phase hph hrun hb (by omega : j < phaseSize s ph)
    rw [nextByte_atPosition hph c _ (by rw [hsize']; omega), if_neg (by rw [hsize']; omega)] at hbyte
    rwa [List.range'_one, List.map_singleton, State.emitBytes_cons, State.emitBytes_nil]
  | succ m ih =>
    have hbyte := reaches_byte_of_phase hph hrun hb (by omega : j < phaseSize s ph)
    rw [nextByte_atPosition hph c _ (by rw [hsize']; omega), if_pos (by rw [hsize']; omega)] at hbyte
    have hrest := ih (s := s.emitByte (phaseByte s ph j)) (j := j + 1) hrun hb (by rw [hsize']; omega)
    rw [List.range'_succ, List.map_cons, State.emitBytes_cons]
    have hsame : phaseByte (s.emitByte (phaseByte s ph j)) ph = phaseByte s ph := by cases ph <;> rfl
    exact hbyte.trans (hsame ▸ hrest)

end

/-! ### The commands -/

/-- The latch phase sends the latch sequence, of any length, and leaves the phase (R18, R87). -/
theorem reaches_of_enterLatch {c : Running} {s : State} (hrun : s.running = some c) (hb : s.backend ≠ .none) :
    Reaches (s.enterLatch c) (s.emitLatchSequence.leaveLatch c) := by
  unfold State.enterLatch
  split
  · rename_i hzero
    have hempty : s.latchBytes = [] := by rw [State.latchBytes, hzero, List.replicate_zero]
    rw [State.emitLatchSequence, hempty, State.emitBytes_nil]
    exact .refl _
  · rename_i hpos
    obtain ⟨m, hm⟩ := Nat.exists_eq_succ_of_ne_zero hpos
    have hbytes : (List.range' 0 (m + 1)).map (phaseByte s .latch) = s.latchBytes := by
      change (List.range' 0 (m + 1)).map (fun _ => 0x00#8) = s.latchBytes
      rw [List.map_const', List.length_range', State.latchBytes, hm]
    have h := reaches_leavePhase (.inr rfl) m (j := 0) hrun hb (by rw [phaseSize, hm]; omega)
    rw [hbytes] at h
    exact h

/-- The colour phase sends the store, of any size, and the latch phase follows (R18, R85). -/
theorem reaches_of_enterColour {c : Running} {s : State} (hrun : s.running = some c) (hb : s.backend ≠ .none) :
    Reaches (s.enterColour c) ((s.emitBytes s.colourBytes).emitLatchSequence.leaveLatch c) := by
  have hlatch : Reaches ((s.emitBytes s.colourBytes).enterLatch c)
      ((s.emitBytes s.colourBytes).emitLatchSequence.leaveLatch c) := reaches_of_enterLatch hrun hb
  refine Reaches.trans ?_ hlatch
  unfold State.enterColour
  split
  · rename_i hzero
    have hempty : s.colourBytes = [] := by simp [State.colourBytes, State.storeSize, hzero]
    rw [hempty, State.emitBytes_nil]
    exact .refl _
  · rename_i hne
    have hpos : s.storeSize ≠ 0 := by
      have : 0 < s.length.toNat := BitVec.toNat_pos_of_ne_zero hne
      unfold State.storeSize
      omega
    obtain ⟨m, hm⟩ := Nat.exists_eq_succ_of_ne_zero hpos
    have hbytes : (List.range' 0 (m + 1)).map (phaseByte s .colour) = s.colourBytes := by
      rw [State.colourBytes, hm, List.range_eq_range']
      rfl
    have h := reaches_leavePhase (.inl rfl) m (j := 0) hrun hb (by rw [phaseSize, hm]; omega)
    rw [hbytes] at h
    exact h

/-- From phase Settle one step completes the command (R18). -/
theorem reaches_finish_of_leaveLatch_transmit (s : State) (hrun : s.running = some .transmit) :
    Reaches (s.leaveLatch .transmit) s.settleDelay.finish :=
  .of_running (c := .transmit) hrun (.refl _)

/-- Settles O51: the split form starts where the atomic one does, sends its phases, and ends in the atomic end state. -/
theorem splitExecutionReachesTheAtomicState : Obligations.SplitExecutionReachesTheAtomicState := by
  intro c s t h
  cases c with
  | activate =>
    cases henable : s.enableEvents with
    | none =>
      cases (exec_activate_of_enableEvents_none henable).symm.trans h
      exact ⟨_, 0, by simp only [State.beginCommand, henable], rfl⟩
    | some evs =>
      cases (exec_activate_of_enableEvents_some henable).symm.trans h
      have hb : s.backend ≠ .none := State.backend_ne_none_of_enableEvents henable
      obtain ⟨n, hn⟩ := reaches_of_enterLatch (s := { s with running := some .activate }.enable evs) (c := .activate)
        rfl hb
      exact ⟨_, n, by simp only [State.beginCommand, henable], hn⟩
  | transmit =>
    obtain ⟨hready, rfl⟩ := eq_transmitted_of_exec h
    obtain ⟨n, hn⟩ := (reaches_of_enterColour (s := { s with running := some .transmit }) (c := .transmit) rfl
      hready.2).trans (reaches_finish_of_leaveLatch_transmit _ rfl)
    exact ⟨_, n, by rw [State.beginCommand, State.throughActiveBackend_of_ready _ hready], hn⟩
  | emitLatch =>
    have hready : s.Ready := (effect_of_exec h).ready rfl
    cases (exec_emitLatch_of_ready hready).symm.trans h
    obtain ⟨n, hn⟩ := reaches_of_enterLatch (s := { s with running := some .emitLatch }) (c := .emitLatch) rfl hready.2
    exact ⟨_, n, by rw [State.beginCommand, State.throughActiveBackend_of_ready _ hready], hn⟩

end Sys2Proof.Machine

/-! The levels of undriven pins (R20, U5). Two states that agree but for those levels stay so through every shared
operation, because an event's effect on the lines reads none, and so through every instruction. -/

namespace Sys2Proof.Machine

/-! ### Lines that agree while driven -/

/-- The same outputs are on, and the levels are the same if the pins are driven. -/
def Lines.Agree (l l' : Lines) : Prop :=
  l.drive = l'.drive ∧ l.nativeOn = l'.nativeOn ∧ (l.drive = true → l.dat = l'.dat ∧ l.clk = l'.clk)

theorem Lines.Agree.refl (l : Lines) : l.Agree l := ⟨rfl, rfl, fun _ => ⟨rfl, rfl⟩⟩

/-- An event acts on the lines without reading a level. -/
theorem Lines.Agree.after {l l' : Lines} (h : l.Agree l') (e : Event) : (l.after e).Agree (l'.after e) := by
  obtain ⟨hdrive, hnative, hlevels⟩ := h
  cases e <;> simp_all [Lines.Agree, Lines.after]

theorem Lines.Agree.foldl {l l' : Lines} (h : l.Agree l') (evs : List Event) :
    (evs.foldl Lines.after l).Agree (evs.foldl Lines.after l') := by
  induction evs generalizing l l' with
  | nil => exact h
  | cons e evs ih => exact ih (h.after e)

/-! ### States that agree while driven -/

/-- The states differ at most in the levels of undriven pins. -/
def AgreeDriven (s s' : State) : Prop := ∃ l, s' = { s with lines := l } ∧ s.lines.Agree l

theorem agreeDriven_maskFloating (s : State) : AgreeDriven s (maskFloating s) := by
  unfold maskFloating
  split
  · exact ⟨s.lines, rfl, .refl _⟩
  · rename_i hdrive
    exact ⟨_, rfl, rfl, rfl, fun h => absurd h hdrive⟩

theorem AgreeDriven.maskFloating_eq {s s' : State} (h : AgreeDriven s s') : maskFloating s = maskFloating s' := by
  obtain ⟨⟨dat, clk, drive, nativeOn⟩, rfl, hdrive, hnative, hlevels⟩ := h
  unfold maskFloating
  split
  · rename_i hon
    obtain ⟨hdat, hclk⟩ := hlevels hon
    simp only at hdat hclk
    subst hdrive hnative hdat hclk
    rw [if_pos hon]
  · rename_i hoff
    subst hdrive hnative
    simp [hoff]

section
variable {s s' : State} (h : AgreeDriven s s')
include h

theorem AgreeDriven.fsm_eq : s'.fsm = s.fsm := by obtain ⟨l, rfl, -⟩ := h; rfl
theorem AgreeDriven.backend_eq : s'.backend = s.backend := by obtain ⟨l, rfl, -⟩ := h; rfl
theorem AgreeDriven.length_eq : s'.length = s.length := by obtain ⟨l, rfl, -⟩ := h; rfl
theorem AgreeDriven.cfg_eq : s'.cfg = s.cfg := by obtain ⟨l, rfl, -⟩ := h; rfl
theorem AgreeDriven.latchBytes_eq : s'.latchBytes = s.latchBytes := by obtain ⟨l, rfl, -⟩ := h; rfl
theorem AgreeDriven.colourBytes_eq : s'.colourBytes = s.colourBytes := by obtain ⟨l, rfl, -⟩ := h; rfl
theorem AgreeDriven.enableEvents_eq : s'.enableEvents = s.enableEvents := by obtain ⟨l, rfl, -⟩ := h; rfl
theorem AgreeDriven.memReadPixel_eq (a : Nat) : s'.memReadPixel a = s.memReadPixel a := by
  obtain ⟨l, rfl, -⟩ := h; rfl

theorem AgreeDriven.emit (evs : List Event) : AgreeDriven (s.emit evs) (s'.emit evs) := by
  obtain ⟨l, rfl, hl⟩ := h
  exact ⟨_, rfl, hl.foldl evs⟩

theorem AgreeDriven.complete (st : Status) (r : Word) : AgreeDriven (s.complete st r) (s'.complete st r) := by
  obtain ⟨l, rfl, hl⟩ := h
  exact ⟨l, rfl, hl⟩

theorem AgreeDriven.finish : AgreeDriven s.finish s'.finish := by
  obtain ⟨l, rfl, hl⟩ := h
  exact ⟨l, rfl, hl⟩

theorem AgreeDriven.enable (evs : List Event) : AgreeDriven (s.enable evs) (s'.enable evs) := by
  obtain ⟨l, rfl, hl⟩ := h
  exact ⟨_, rfl, hl.foldl evs⟩

theorem AgreeDriven.emitByte (b : Byte) : AgreeDriven (s.emitByte b) (s'.emitByte b) := by
  rw [State.emitByte, State.emitByte, h.backend_eq]
  exact h.emit _

theorem AgreeDriven.emitBytes (bs : List Byte) : AgreeDriven (s.emitBytes bs) (s'.emitBytes bs) := by
  rw [State.emitBytes, State.emitBytes, h.backend_eq]
  exact h.emit _

theorem AgreeDriven.emitLatchSequence : AgreeDriven s.emitLatchSequence s'.emitLatchSequence := by
  rw [State.emitLatchSequence, State.emitLatchSequence, h.latchBytes_eq]
  exact h.emitBytes _

theorem AgreeDriven.settleDelay : AgreeDriven s.settleDelay s'.settleDelay := by
  rw [State.settleDelay, State.settleDelay, h.cfg_eq]
  exact h.emit _

theorem AgreeDriven.newStore (n : Half) : AgreeDriven (s.newStore n) (s'.newStore n) := by
  obtain ⟨l, rfl, hl⟩ := h
  refine ⟨l, ?_, by rwa [State.newStore_lines]⟩
  unfold State.newStore
  split <;> rfl

/-- Releasing the pins gives them the same free levels in both states. -/
theorem AgreeDriven.floatLines : AgreeDriven s.floatLines s'.floatLines := by
  obtain ⟨l, rfl, hdrive, hnative, -⟩ := h
  exact ⟨_, rfl, hdrive, hnative, fun _ => ⟨rfl, rfl⟩⟩

theorem AgreeDriven.quiesce : AgreeDriven s.quiesce s'.quiesce := by
  unfold State.quiesce
  rw [h.backend_eq]
  cases s.backend with
  | none => exact h
  | native => exact h.emit _
  | manual d c slow => exact (h.emit _).floatLines

theorem AgreeDriven.select (k : Backend) : AgreeDriven (s.select k) (s'.select k) := by
  have hold : AgreeDriven (if s.fsm = .active then s.quiesce else s) (if s.fsm = .active then s'.quiesce else s') := by
    split
    · exact h.quiesce
    · exact h
  obtain ⟨l, hl, hlines⟩ := hold
  refine ⟨l, ?_, hlines⟩
  rw [State.select, State.select, h.fsm_eq, hl]

/-! ### The instructions -/

theorem AgreeDriven.mapNext_eq :
    mapNext maskFloating (.next s) = mapNext maskFloating (.next s') :=
  congrArg Host.Outcome.next h.maskFloating_eq

/-- The check before a send reads no line. -/
theorem AgreeDriven.throughActiveBackend {send : State → State} (hsend : AgreeDriven (send s) (send s')) :
    mapNext maskFloating (s.throughActiveBackend send) = mapNext maskFloating (s'.throughActiveBackend send) := by
  unfold State.throughActiveBackend
  rw [h.fsm_eq, h.backend_eq]
  split
  · cases s.backend with
    | none => rfl
    | native => exact hsend.mapNext_eq
    | manual d c slow => exact hsend.mapNext_eq
  · rfl

theorem AgreeDriven.storePixel (index : Half) (p : StoredPixel) :
    mapNext maskFloating (storePixel index p s) = mapNext maskFloating (storePixel index p s') := by
  by_cases hin : index < s.length
  · obtain ⟨l, rfl, hl⟩ := h
    have hinside : pixelAddress index + 3 ≤ s.storeSize := pixelAddress_inside s index hin
    have hinside' : pixelAddress index + 3 ≤ State.storeSize { s with lines := l } := hinside
    simp only [Sys2Proof.Machine.storePixel, State.memWritePixel, if_pos hin, if_pos hinside, if_pos hinside']
    exact AgreeDriven.mapNext_eq ⟨l, rfl, hl⟩
  · rw [storePixel_of_not_lt_length hin, storePixel_of_not_lt_length (h.length_eq ▸ hin)]
    exact (h.complete .ok 0).mapNext_eq

theorem AgreeDriven.execGetPixelPacked (index : Half) :
    mapNext maskFloating (execGetPixelPacked index s) = mapNext maskFloating (execGetPixelPacked index s') := by
  unfold Sys2Proof.Machine.execGetPixelPacked
  rw [h.length_eq, h.memReadPixel_eq]
  split
  · cases s.memReadPixel (pixelAddress index) with
    | ok p => exact (h.complete _ _).mapNext_eq
    | error f => rfl
  · exact (h.complete _ _).mapNext_eq

theorem AgreeDriven.execActivate :
    mapNext maskFloating (execActivate s) = mapNext maskFloating (execActivate s') := by
  unfold Sys2Proof.Machine.execActivate
  rw [h.enableEvents_eq]
  cases s.enableEvents with
  | none => exact (h.complete _ _).mapNext_eq
  | some evs => exact (h.enable evs).emitLatchSequence.finish.mapNext_eq

theorem AgreeDriven.execTransmit :
    mapNext maskFloating (execTransmit s) = mapNext maskFloating (execTransmit s') := by
  refine h.throughActiveBackend ?_
  rw [h.colourBytes_eq]
  exact (h.emitBytes _).emitLatchSequence.settleDelay.finish

/-- States that agree but for undriven levels have outcomes that do. -/
theorem AgreeDriven.exec (i : Instr) : mapNext maskFloating (exec i s) = mapNext maskFloating (exec i s') := by
  cases i with
  | constructNative n => exact ((h.select _).newStore n).mapNext_eq
  | constructPins n d c slow => exact ((h.select _).newStore n).mapNext_eq
  | selectNative => exact ((h.select _).complete _ _).mapNext_eq
  | selectPins d c slow => exact ((h.select _).complete _ _).mapNext_eq
  | activate => exact h.execActivate
  | setPixel index r g b => exact h.storePixel index _
  | setPixelPacked index color => exact h.storePixel index _
  | getPixelPacked index => exact h.execGetPixelPacked index
  | transmit => exact h.execTransmit
  | resize n => exact (h.newStore n).mapNext_eq
  | pack r g b => exact (h.complete _ _).mapNext_eq
  | latchLength n => exact (h.complete _ _).mapNext_eq
  | emitLatch => exact h.throughActiveBackend (send := fun s => s.emitLatchSequence.finish) h.emitLatchSequence.finish
  | colourByte x => exact h.throughActiveBackend (h.emitByte _)
  | latchByte => exact h.throughActiveBackend (h.emitByte _)

end

/-- Settles O53: a state and its masked form agree but for undriven levels. -/
theorem undrivenLevelsAreNeverRead : Obligations.UndrivenLevelsAreNeverRead :=
  fun i s => (agreeDriven_maskFloating s).exec i

end Sys2Proof.Machine
